-- ==== Sys2Proof/Word.lean ====
section
/-! DEFINITION. The word types of the block, its two ports, and data kept once per port
(spec/00_scope.md R6, R7). -/

namespace Sys2Proof

/-- A command or response word: `cmd` and `rsp` are 32 bits (R50, R57). Bit 0 is the least significant (R7). -/
abbrev Word := BitVec 32

/-- One raw sample or debounced vector: `PORT_W = 8` bits (R6), and a drive level: `DRV_W = 8` bits (R6). -/
abbrev Byte := BitVec 8

/-- The "two input ports": every value of RDDEB's one-bit operand names one of them (R55). -/
inductive Port where
  | port0
  | port1
deriving DecidableEq, Repr, Inhabited

/-- One value for each of the `NPORTS = 2` ports (R6). -/
structure PerPort (α : Type) where
  port0 : α
  port1 : α
deriving DecidableEq, Repr, Inhabited

/-- The value kept for port `p`: the spec's `X[p]`. -/
def PerPort.get {α : Type} (x : PerPort α) : Port → α
  | .port0 => x.port0
  | .port1 => x.port1

/-- The `HDEPTH = 3` most recent raw samples of one port (R6, R25). -/
structure History where
  /-- `H[p][0]`, the newest sample. -/
  newest : Byte
  /-- `H[p][1]`. -/
  middle : Byte
  /-- `H[p][2]`, the oldest sample. -/
  oldest : Byte
deriving DecidableEq, Repr, Inhabited

end Sys2Proof
end

