-- ==== Sys2Proof/Config.lean ====
section
/-! DEFINITION. The block's build-time parameters (spec/00_scope.md R6, spec/10_state.md R29) and the
model's free values. A constant declared `opaque` has no body: no proof can learn its value. -/

namespace Sys2Proof

/-- The parameters fixed when the block is built (R6, R29). The range of each is its type:
`0 <= MAX_TX_POWER_MW <= 32767` (R99), sixteen 8-bit unsigned drive levels in no assumed order (R93),
and an 8-bit unsigned `MAX_DRIVE`. -/
structure Params where
  /-- `MAX_TX_POWER_MW`, the upper clamp of a request, in mW. -/
  maxTxPowerMw : Fin 32768
  /-- `DRIVE_TABLE[0..15]`. -/
  driveTable : Vector Byte 16
  /-- `MAX_DRIVE`. -/
  maxDrive : Byte
deriving DecidableEq, Repr, Inhabited

namespace Config

/-- The default of `MAX_TX_POWER_MW` (R6, D11). Used by `State.reset` alone: every meaning reads the
parameter from State, so that a statement about every state holds for every value of it (log entry 1). -/
def maxTxPowerMw : Fin 32768 := 5000

/-- `DRIVE_TABLE`: no source gives a value (R93, D12), so it is a free value (log entry 1). -/
opaque driveTable : Vector Byte 16

/-- `MAX_DRIVE`: no source gives a value (R93, D13), so it is a free value (log entry 1). -/
opaque maxDrive : Byte

/-- The parameter set of `State.reset`. -/
def params : Params :=
  { maxTxPowerMw := maxTxPowerMw, driveTable := driveTable, maxDrive := maxDrive }

/-! The state between power-up and the first reset is unspecified (R142): one free value for each field of
R22, for each count of events taken so far (log entry 4). -/

/-- Free: `H` after power-up. -/
opaque powerUpHist : Nat → PerPort History
/-- Free: `DEB` after power-up. -/
opaque powerUpDeb : Nat → PerPort Byte
/-- Free: `Q_MW` after power-up. -/
opaque powerUpQMw : Nat → BitVec 16
/-- Free: `Q_DRV` after power-up. -/
opaque powerUpQDrv : Nat → BitVec 8
/-- Free: `Q_BKT` after power-up. -/
opaque powerUpQBkt : Nat → BitVec 4
/-- Free: `Q_STAT` after power-up. -/
opaque powerUpQStat : Nat → BitVec 2
/-- Free: `RSP` after power-up. -/
opaque powerUpRsp : Nat → Word

/-- Free: the levels on `raw0` and `raw1` at a clock edge for which the model is told only the command
word (`State.withFetchWord`). R24: "under no law" (log entry 3). -/
opaque freeRaw : Nat → PerPort Byte

end Config

end Sys2Proof
end

