-- ==== Sys2Proof/Machine/State.lean ====
section
/-! DEFINITION. The state of the machine (spec/10_state.md R22), the input pins (R23), what the outside world
does to the block, the reasons a step can stop, and the state after reset (R33). -/

namespace Sys2Proof.Machine

/-- The levels on the block's input ports at one rising edge of `clk` (R23). -/
structure Pins where
  /-- `rst`, synchronous reset, active high (R140). -/
  rst : Bool
  /-- `cmd_valid`: a command is presented on `cmd`. -/
  cmdValid : Bool
  /-- `cmd`, the command word. -/
  cmd : Word
  /-- `raw0` and `raw1`, the raw levels of the two input ports (R24). -/
  raw : PerPort Byte
deriving DecidableEq, Repr

/-- What the outside world can do to the block (log entry 2). -/
inductive Event where
  /-- A rising edge of `clk` with these levels on the input ports (R23). -/
  | edge (pins : Pins)
  /-- Power is lost and comes back: the block keeps no state across it (R32). -/
  | powerCycle
deriving DecidableEq, Repr

/-- The block has no trap and no exception mechanism (R120, R125): no step ends in a fault, and this type
has no constructor. -/
inductive Fault where
deriving DecidableEq, Repr

/-- The reasons a step can be refused. -/
inductive Refusal where
  /-- Raised by an arm of `exec` for an instruction that has no meaning yet; no arm is one. Safe. -/
  | notModelled (mnemonic : String)
  /-- Raised by a clock edge that presents a command before the first reset after power-up: R142 says a
  model refuses one. Safe. -/
  | commandBeforeReset
deriving DecidableEq, Repr

/-- Everything the spec gives the machine, then the model's own fields. -/
structure State where
  /-- `H[p][k]`: the raw sample history of each port (R22, R25). -/
  hist : PerPort History
  /-- `DEB[p]`: the debounced vector of each port (R22, R26). -/
  deb : PerPort Byte
  /-- `Q_MW`: the quantized power of the last QUANT, in mW (R22, R27). -/
  qMw : BitVec 16
  /-- `Q_DRV`: the drive level of the last QUANT (R22, R27). -/
  qDrv : BitVec 8
  /-- `Q_BKT`: the bucket index of the last QUANT (R22, R27). -/
  qBkt : BitVec 4
  /-- `Q_STAT`: the status of the last QUANT or QNULL (R22, R28). -/
  qStat : BitVec 2
  /-- `RSP`: the response of the last executed command (R22, R57). -/
  rsp : Word
  /-- The parameters the block was built with (R6, R29). No step writes them (log entry 1). -/
  params : Params
  /-- Whether a reset edge has come since power-up (R142). The model's own field (log entry 4). -/
  hasReset : Bool
  /-- The levels on the input ports at the latest edge (R23). The model's own field (log entry 3). -/
  pins : Pins
  /-- What the outside world does next, soonest first (R46: the platform's order, left free). The model's own
  field (log entry 2). -/
  events : List Event
  /-- How many events have been taken: the index of the next free values. The model's own field (log entry 4). -/
  taken : Nat
deriving DecidableEq, Repr

/-- Input ports that present nothing: no reset, no command. The levels are never read by a step, which takes its
pins from an event (log entry 3). -/
def Pins.idle : Pins :=
  { rst := false, cmdValid := false, cmd := 0#32, raw := ⟨0#8, 0#8⟩ }

/-- The state right after reset of a block built with parameters `p`: every field at its value of R33, and no event
scheduled. -/
def State.initial (p : Params) : State :=
  { hist := ⟨⟨0#8, 0#8, 0#8⟩, ⟨0#8, 0#8, 0#8⟩⟩
    deb := ⟨0#8, 0#8⟩
    qMw := 0#16
    qDrv := BitVec.ofNat 8 (min p.driveTable[0].toNat p.maxDrive.toNat)
    qBkt := 0#4
    qStat := 0b00#2
    rsp := 0x00000000#32
    params := p
    hasReset := true
    pins := Pins.idle
    events := []
    taken := 0 }

/-- The machine right after reset (R33), with the parameters of Config (log entry 1). -/
def State.reset : State := State.initial Config.params

end Sys2Proof.Machine
end

