-- ==== Sys2Proof/Machine/Flags.lean ====
section
/-! DEFINITION. The status field `Q_STAT` (spec/10_state.md R28), the block's only status (R30). -/

namespace Sys2Proof.Machine

/-- The codes of `Q_STAT` (R28). `0b11` is reserved and no rule writes it. -/
def statNoError : BitVec 2 := 0b00#2
def statPowerLevelNotSupported : BitVec 2 := 0b01#2
def statLogicError : BitVec 2 := 0b10#2

/-- `over`: the original request exceeded the maximum (R91). -/
abbrev Over (p : Params) (req : Int) : Prop := (p.maxTxPowerMw.val : Int) < req

/-- The status of a QUANT: `(req > MAX_TX_POWER_MW) ? 0b01 : 0b00` (R94). -/
def quantStatus (p : Params) (req : Int) : BitVec 2 :=
  if Over p req then statPowerLevelNotSupported else statNoError

end Sys2Proof.Machine
end

