-- ==== Sys2Proof/Syntax.lean ====
section
/-! DEFINITION. The commands of the block: one constructor for each row of spec/opcode_table.json
(spec/30_encoding.md R51). An illegal word is no command: it is the decoder's verdict (R58). -/

namespace Sys2Proof

/-- A command with its operand, as R58 names the operands. -/
inductive Instr where
  /-- NOP: sets the response and nothing else (R110). -/
  | nop
  /-- TICK: sample both raw ports, shift them into the history, filter (R71). -/
  | tick
  /-- RDDEB: read the debounced vector of one port (R75). -/
  | rddeb (port : Port)
  /-- QUANT: quantize a request of `req` mW, a mathematical integer (R56, R95). -/
  | quant (req : Int)
  /-- QNULL: a quantize request with no value (R96). -/
  | qnull
  /-- RDQ: read the quantizer result (R97). -/
  | rdq
deriving DecidableEq, Repr

end Sys2Proof
end

