-- ==== Sys2Proof/WellFormed.lean ====
section
/-! DEFINITION. Which terms of `Instr` are commands of the block. -/

namespace Sys2Proof

/-- The range of a request that the 16-bit two's complement operand of QUANT can carry (R56). -/
abbrev RequestInRange (req : Int) : Prop := -32768 ≤ req ∧ req ≤ 32767

/-- A command is well formed when its operand fits its field. The port of RDDEB always does (R55); the
request of QUANT must be in range (R56, R59). -/
abbrev Instr.WellFormed : Instr → Prop
  | .nop => True
  | .tick => True
  | .rddeb _ => True
  | .quant req => RequestInRange req
  | .qnull => True
  | .rdq => True

end Sys2Proof
end

