-- ==== Sys2Proof/Decode.lean ====
section
/-! DEFINITION. The opcode table (spec/30_encoding.md R51), the decoder (R58) and the encoder. The decoder is
total: a word it does not read as a command it rejects by name. -/

namespace Sys2Proof

/-- One row of the opcode table: a word is the row's command exactly when `w & mask = pattern` (R51). -/
structure Row where
  mnemonic : String
  pattern : Word
  mask : Word
deriving DecidableEq, Repr

/-- Why a word is illegal (R111). The block reports both alike; the names are the model's (log entry 8). -/
inductive IllegalWord where
  /-- `OP` is one of `0x6` to `0xF` (R54). -/
  | reservedOpcode
  /-- `OP` is defined and a should-be-zero bit is set (R53). -/
  | sbzNonzero
deriving DecidableEq, Repr

def rowNop : Row := ⟨"NOP", 0x00000000#32, 0xFFFFFFFF#32⟩
def rowTick : Row := ⟨"TICK", 0x10000000#32, 0xFFFFFFFF#32⟩
def rowRddeb : Row := ⟨"RDDEB", 0x20000000#32, 0xFFFFFFFE#32⟩
def rowQuant : Row := ⟨"QUANT", 0x30000000#32, 0xFFFF0000#32⟩
def rowQnull : Row := ⟨"QNULL", 0x40000000#32, 0xFFFFFFFF#32⟩
def rowRdq : Row := ⟨"RDQ", 0x50000000#32, 0xFFFFFFFF#32⟩

/-- The opcode table, in the order of R51. -/
def opcodeTable : List Row := [rowNop, rowTick, rowRddeb, rowQuant, rowQnull, rowRdq]

/-- `w` is the command of row `r`: `(w & mask) = match` (R51). -/
abbrev Row.Matches (r : Row) (w : Word) : Prop := w &&& r.mask = r.pattern

/-- The opcode field `OP = cmd[31:28]` (R50). -/
def opcodeField (w : Word) : BitVec 4 := w.extractLsb' 28 4

/-- The port operand of RDDEB: `port = uint(cmd[0])` (R55). -/
def portOfWord (w : Word) : Port := if w.getLsbD 0 then .port1 else .port0

/-- The immediate of QUANT: `req = sint(cmd[15:0])` (R56). -/
def reqOfWord (w : Word) : Int := (w.extractLsb' 0 16).toInt

/-- The name under which a word that matches no row is rejected (R53, R54). -/
def illegalName (w : Word) : IllegalWord :=
  if 6 ≤ (opcodeField w).toNat then .reservedOpcode else .sbzNonzero

/-- The decoder of R58. -/
def decode (w : Word) : Except IllegalWord Instr :=
  if rowNop.Matches w then .ok .nop
  else if rowTick.Matches w then .ok .tick
  else if rowRddeb.Matches w then .ok (.rddeb (portOfWord w))
  else if rowQuant.Matches w then .ok (.quant (reqOfWord w))
  else if rowQnull.Matches w then .ok .qnull
  else if rowRdq.Matches w then .ok .rdq
  else .error (illegalName w)

/-- The decoder's answer for a row's bits, which are those of the one 32-bit command word (R50): bit 0 is
`cmd[0]`, and the bits from `nbits` on are zero. -/
def wordOfTable (nbits w : Nat) : Word := BitVec.ofNat 32 (w % 2 ^ nbits)

/-- What the decoder reads from the word whose bits are `w`, numbered as the opcode table numbers them. -/
def decodeTableWord (nbits w : Nat) : Option Instr :=
  match decode (wordOfTable nbits w) with
  | .ok i => some i
  | .error _ => none

/-! ## The encoder -/

/-- The row of a command. -/
def rowOf : Instr → Row
  | .nop => rowNop
  | .tick => rowTick
  | .rddeb _ => rowRddeb
  | .quant _ => rowQuant
  | .qnull => rowQnull
  | .rdq => rowRdq

/-- The field `P` of format P (R50). -/
def portField : Port → Word
  | .port0 => 0#32
  | .port1 => 1#32

/-- The field `IMM16` of format I: `n & 0xFFFF` (R50, R59). -/
def immField (req : Int) : Word := (BitVec.ofInt 16 req).setWidth 32

/-- The operand bits of a command word; formats Z, P and I of R50. -/
def operandField : Instr → Word
  | .nop => 0#32
  | .tick => 0#32
  | .rddeb p => portField p
  | .quant req => immField req
  | .qnull => 0#32
  | .rdq => 0#32

/-- The word of a command: `0x20000000 | p` for RDDEB, `0x30000000 | (n & 0xFFFF)` for QUANT, the row's
pattern for the others (R51, R59). -/
def encode (i : Instr) : Word := (rowOf i).pattern ||| operandField i

end Sys2Proof
end

