-- ==== Sys2Proof/Machine/Operands.lean ====
section
/-! DEFINITION. Operand and response forms: sampling the raw ports, the clamped request, and the four response
words (spec/30_encoding.md R57). -/

namespace Sys2Proof.Machine

/-- `SampleRaw(p)`: the level on raw input port `p` at this edge (R8, R24). -/
def sampleRaw (s : State) (p : Port) : Byte := s.pins.raw.get p

/-- The clamped request `c = min(max(req, 0), MAX_TX_POWER_MW)`, on mathematical integers (R91). -/
def clampRequest (p : Params) (req : Int) : Int := min (max req 0) (p.maxTxPowerMw.val : Int)

/-- Response form RZ (R57): NOP and TICK. -/
def rspZ : Word := 0x00000000#32

/-- Response form RD (R57): `rsp[7:0]` is the vector and `rsp[31:8] = 0`. -/
def rspD (v : Byte) : Word := v.setWidth 32

/-- Response form RQ (R57): the concatenation of `2'b00`, `Q_BKT`, `Q_STAT`, `Q_DRV` and `Q_MW`. -/
def rspQ (s : State) : Word := 0b00#2 ++ s.qBkt ++ s.qStat ++ s.qDrv ++ s.qMw

/-- Response form RI (R57): `ILL = rsp[31] = 1`, all else zero. -/
def rspI : Word := 0x80000000#32

end Sys2Proof.Machine
end

