-- ==== Sys2Proof/Machine/Ops.lean ====
section
/-! DEFINITION. The named operations over the state: writing its fields, an edge's arrival, reset, power-up,
and the report of an illegal word, which is all the block has in the place of an exception (spec/60_exceptions.md R120,
R125: it saves no state, switches no mode and jumps nowhere, and there is no return from anything). -/

namespace Sys2Proof.Machine

/-- `rsp <- v` (R8). -/
def State.respond (s : State) (v : Word) : State := { s with rsp := v }

/-- Shift one sample into a history; the oldest is discarded (R71). -/
def pushSample (h : History) (x : Byte) : History := ⟨x, h.newest, h.middle⟩

/-- Write both ports' history and debounced vector: only TICK and reset do (R25, R26). -/
def State.setDebouncer (s : State) (hist : PerPort History) (deb : PerPort Byte) : State :=
  { s with hist := hist, deb := deb }

/-- Write the quantizer's result: only QUANT and reset do (R27). -/
def State.setResult (s : State) (bkt : BitVec 4) (mw : BitVec 16) (drv : BitVec 8) : State :=
  { s with qBkt := bkt, qMw := mw, qDrv := drv }

/-- Write `Q_STAT` (R28). -/
def State.setStatus (s : State) (st : BitVec 2) : State := { s with qStat := st }

/-- The response of QUANT, QNULL and RDQ: form RQ of the values after the step (R57). -/
def State.respondResult (s : State) : State := s.respond (rspQ s)

/-- The report of an illegal word: `RSP` alone is written (R111, R123). -/
def State.reportIllegal (s : State) : State := s.respond rspI

/-- The drive level of bucket 0, to which reset sets `Q_DRV` (R33). -/
def resetDrive (p : Params) : BitVec 8 := BitVec.ofNat 8 (min p.driveTable[0].toNat p.maxDrive.toNat)

/-- A reset edge: every field of R22 takes its value of R33 (R140). The parameters are built in and stay (R29). -/
def State.applyReset (s : State) : State :=
  { s with
    hist := ⟨⟨0#8, 0#8, 0#8⟩, ⟨0#8, 0#8, 0#8⟩⟩
    deb := ⟨0#8, 0#8⟩
    qMw := 0#16
    qDrv := resetDrive s.params
    qBkt := 0#4
    qStat := statNoError
    rsp := 0x00000000#32
    hasReset := true }

/-- Power comes back: every field of R22 is unspecified until the first reset edge (R32, R142), so each takes a free
value (log entry 4). `rest` is what the outside world does next. -/
def State.powerUp (s : State) (rest : List Event) : State :=
  { s with
    hist := Config.powerUpHist s.taken
    deb := Config.powerUpDeb s.taken
    qMw := Config.powerUpQMw s.taken
    qDrv := Config.powerUpQDrv s.taken
    qBkt := Config.powerUpQBkt s.taken
    qStat := Config.powerUpQStat s.taken
    rsp := Config.powerUpRsp s.taken
    hasReset := false
    events := rest
    taken := s.taken + 1 }

/-- A rising edge arrives with levels `p` on the input ports; `rest` is what the outside world does next. -/
def State.present (s : State) (p : Pins) (rest : List Event) : State :=
  { s with pins := p, events := rest, taken := s.taken + 1 }

/-- The output ports `rsp`, `deb0` and `deb1` (R23): always the values of `RSP`, `DEB[0]` and `DEB[1]`. -/
def State.outRsp (s : State) : Word := s.rsp
def State.outDeb0 (s : State) : Byte := s.deb.port0
def State.outDeb1 (s : State) : Byte := s.deb.port1

end Sys2Proof.Machine
end

