-- ==== Sys2Proof/Machine/Control.lean ====
section
/-! DEFINITION. NOP and illegal words (spec/42_control.md). -/

namespace Sys2Proof.Machine

/-- NOP: `rsp <- 0` and nothing else (R110). -/
def execNop (s : State) : Host.Outcome State Fault Refusal := .next (s.respond rspZ)

/-- An illegal word: `RSP` reports it and no other field changes; the block goes on (R111). -/
def execIllegal (s : State) : Host.Outcome State Fault Refusal := .next s.reportIllegal

end Sys2Proof.Machine
end

