-- ==== Sys2Proof/Machine/Debouncer.lean ====
section
/-! DEFINITION. The input debouncer: TICK and RDDEB (spec/40_debouncer.md). -/

namespace Sys2Proof.Machine

/-- The debounce filter on whole vectors (R72): a bit takes the samples' value where all three agree and keeps
`d` elsewhere. `a` is the newest sample and `c` the oldest. -/
def filt (d a b c : Byte) : Byte := (a &&& b &&& c) ||| (d &&& (a ||| b ||| c))

/-- The history of port `p` after a TICK (R71). -/
def tickHist (s : State) (p : Port) : History := pushSample (s.hist.get p) (sampleRaw s p)

/-- The debounced vector of port `p` after a TICK: the new sample and the two newest before it, filtered (R71). -/
def tickDeb (s : State) (p : Port) : Byte :=
  filt (s.deb.get p) (sampleRaw s p) (s.hist.get p).newest (s.hist.get p).middle

/-- TICK: both ports, all reads before all writes; the response is RZ (R71). -/
def execTick (s : State) : Host.Outcome State Fault Refusal :=
  .next ((s.setDebouncer ⟨tickHist s .port0, tickHist s .port1⟩ ⟨tickDeb s .port0, tickDeb s .port1⟩).respond rspZ)

/-- RDDEB: respond with the debounced vector of the port (R75). -/
def execRddeb (port : Port) (s : State) : Host.Outcome State Fault Refusal :=
  .next (s.respond (rspD (s.deb.get port)))

end Sys2Proof.Machine
end

