-- ==== Sys2Proof/Machine/Quantizer.lean ====
section
/-! DEFINITION. The power-level quantizer: QUANT, QNULL and RDQ (spec/41_quantizer.md). -/

namespace Sys2Proof.Machine

/-- `BOUND[0..14]`: the exclusive upper bounds of buckets 0 to 14, in mW (R90). -/
def bounds : List Int :=
  [5, 50, 150, 250, 350, 450, 550, 650, 900, 1250, 1750, 2250, 2750, 3500, 4500]

/-- `SNAP[0..15]`: the snapped power of each bucket, in mW (R90). -/
def snapTable : Vector Nat 16 :=
  #v[0, 10, 100, 200, 300, 400, 500, 600, 800, 1000, 1500, 2000, 2500, 3000, 4000, 5000]

/-- The index of the first entry that is above `c`, or the list's length when there is none. -/
def firstAbove : List Int → Int → Nat
  | [], _ => 0
  | b :: bs, c => if c < b then 0 else firstAbove bs c + 1

/-- The bucket of a clamped request: the least `i` in 0 to 14 with `c < BOUND[i]`, else 15 (R92). -/
def bucket (c : Int) : BitVec 4 := BitVec.ofNat 4 (firstAbove bounds c)

/-- `SNAP[b]` as the 16-bit value of `Q_MW` (R90, R95). -/
def snap (b : BitVec 4) : BitVec 16 := BitVec.ofNat 16 (snapTable[b.toNat]'b.isLt)

/-- `DRIVE_TABLE[b]` (R93). -/
def driveEntry (p : Params) (b : BitVec 4) : Byte := p.driveTable[b.toNat]'b.isLt

/-- The drive level of bucket `b`: `min(uint(DRIVE_TABLE[b]), uint(MAX_DRIVE))` (R93). -/
def drive (p : Params) (b : BitVec 4) : BitVec 8 :=
  BitVec.ofNat 8 (min (driveEntry p b).toNat p.maxDrive.toNat)

/-- The bucket a request falls in under parameters `p` (R91, R92). -/
def requestBucket (p : Params) (req : Int) : BitVec 4 := bucket (clampRequest p req)

/-- QUANT: quantize the clamped request, write result and status, respond with RQ of the new values (R95). -/
def execQuant (req : Int) (s : State) : Host.Outcome State Fault Refusal :=
  let b := requestBucket s.params req
  .next ((s.setResult b (snap b) (drive s.params b)).setStatus (quantStatus s.params req)).respondResult

/-- QNULL: the status becomes LogicError and the result stays; respond with RQ of the new values (R96). -/
def execQnull (s : State) : Host.Outcome State Fault Refusal :=
  .next (s.setStatus statLogicError).respondResult

/-- RDQ: respond with RQ (R97). -/
def execRdq (s : State) : Host.Outcome State Fault Refusal := .next s.respondResult

end Sys2Proof.Machine
end

