-- ==== Sys2Proof/Machine/Dispatch.lean ====
section
/-! DEFINITION. From a command to its meaning, one arm per constructor of Instr. -/

namespace Sys2Proof.Machine

def exec (i : Instr) (s : State) : Host.Outcome State Fault Refusal :=
  match i with
  | .nop => Sys2Proof.Machine.execNop s
  | .tick => Sys2Proof.Machine.execTick s
  | .rddeb port => Sys2Proof.Machine.execRddeb port s
  | .quant req => Sys2Proof.Machine.execQuant req s
  | .qnull => Sys2Proof.Machine.execQnull s
  | .rdq => Sys2Proof.Machine.execRdq s

end Sys2Proof.Machine
end

