-- ==== Sys2Proof/Machine/Edge.lean ====
section
/-! DEFINITION. What one event does to the block: a rising clock edge (spec/10_state.md R23, with the order
of R124) or a loss of power (R32). -/

namespace Sys2Proof.Machine

/-- Execute the word on `cmd`: decoding comes first, and nothing in an illegal word is executed (R124 b). -/
def runWord (w : Word) (s : State) : Host.Outcome State Fault Refusal :=
  match decode w with
  | .ok i => exec i s
  | .error _ => execIllegal s

/-- One rising edge of `clk` with the levels `s.pins`. Reset comes before the command (R141); with no command no
field changes (R23); a command before the first reset is refused (R142). -/
def clockEdge (s : State) : Host.Outcome State Fault Refusal :=
  if s.pins.rst then .next s.applyReset
  else if s.pins.cmdValid then
    if s.hasReset then runWord s.pins.cmd s else .refused .commandBeforeReset
  else .next s

/-- Take the next event. When none is scheduled the outside world does nothing and nothing changes (log entry 2). -/
def takeEvent (s : State) : Host.Outcome State Fault Refusal :=
  match s.events with
  | [] => .next s
  | .edge p :: rest => clockEdge (s.present p rest)
  | .powerCycle :: rest => .next (s.powerUp rest)

/-- The edge at which a command word is executed: no reset, `cmd_valid` high. -/
def commandPins (w : Word) (raw : PerPort Byte) : Pins :=
  { rst := false, cmdValid := true, cmd := w, raw := raw }

/-- Schedule, before all else, the edge that executes word `w` with free levels on the raw ports (R24, log entry 3). -/
def State.scheduleWord (s : State) (w : Word) : State :=
  { s with events := .edge (commandPins w (Config.freeRaw s.taken)) :: s.events }

end Sys2Proof.Machine
end

