-- ==== Sys2Proof/Machine/Step.lean ====
section
/-! DEFINITION. One step of the machine: it takes the next event. -/

namespace Sys2Proof.Machine

/-- One step (R8, R46): one event, at most one command. -/
def step (s : State) : Host.Outcome State Fault Refusal := takeEvent s

/-- `s` with the command whose bits are `w` presented at the very next edge. The block has no program counter and
fetches nothing (R21): the host hands it each word on `cmd`, so this is the host presenting one (log entry 5). In a state
that has not seen a reset, R142 has the step refuse it. -/
def State.withFetchWord (s : State) (nbits w : Nat) : State := s.scheduleWord (wordOfTable nbits w)

end Sys2Proof.Machine
end

