-- ==== Sys2Proof/Machine/Assembler.lean ====
section
/-! DEFINITION. The assembler syntax of the spec's command listings (spec/30_encoding.md R59): from a line of
text to the command word it stands for. It is a notation of the spec, no part of the block's behaviour (D28); no
step reads it. -/

namespace Sys2Proof.Machine

/-- What a line of a listing stands for. -/
inductive AsmLine where
  /-- An empty line or a comment. -/
  | blank
  /-- One command word, which may be illegal. -/
  | word (w : Word)
deriving DecidableEq, Repr

/-- White space between the words of a line. -/
def isBlank (c : Char) : Bool := c = ' ' || c = '\t' || c = '\r'

/-- The line without its comment, which runs from `;` to the end of the line (R59). -/
def uncomment (cs : List Char) : List Char := cs.takeWhile (· ≠ ';')

/-- The words of a line; `cur` is the word being read, last character first. -/
def splitTokens : List Char → List Char → List (List Char)
  | [], cur => if cur.isEmpty then [] else [cur.reverse]
  | c :: cs, cur =>
    if isBlank c then
      if cur.isEmpty then splitTokens cs [] else cur.reverse :: splitTokens cs []
    else splitTokens cs (c :: cur)

/-- The value of one digit, decimal or hexadecimal. -/
def digitValue (c : Char) : Option Nat :=
  if '0' ≤ c ∧ c ≤ '9' then some (c.toNat - '0'.toNat)
  else if 'a' ≤ c ∧ c ≤ 'f' then some (c.toNat - 'a'.toNat + 10)
  else if 'A' ≤ c ∧ c ≤ 'F' then some (c.toNat - 'A'.toNat + 10)
  else none

/-- The number a list of digits writes in `base`, its digits so far having the value `acc`. -/
def digitsFrom (base : Nat) : Nat → List Char → Option Nat
  | acc, [] => some acc
  | acc, c :: cs =>
    match digitValue c with
    | some d => if d < base then digitsFrom base (acc * base + d) cs else none
    | none => none

/-- A non-empty list of decimal digits. -/
def decimal (cs : List Char) : Option Nat := if cs.isEmpty then none else digitsFrom 10 0 cs

/-- `0x` and exactly `n` hexadecimal digits. -/
def hex (n : Nat) : List Char → Option Nat
  | '0' :: 'x' :: ds => if ds.length = n then digitsFrom 16 0 ds else none
  | _ => none

/-- A decimal integer, with or without a minus sign. -/
def decimalInt : List Char → Option Int
  | '-' :: ds => (decimal ds).map fun n => -(n : Int)
  | ds => (decimal ds).map fun n => (n : Int)

/-- `QUANT n`: `0xHHHH` gives the 16-bit field directly; otherwise `n` is a decimal integer in range (R59). -/
def quantOperand (t : List Char) : Option Word :=
  match hex 4 t with
  | some n => some (rowQuant.pattern ||| BitVec.ofNat 32 n)
  | none =>
    match decimalInt t with
    | some n => if RequestInRange n then some (encode (.quant n)) else none
    | none => none

/-- `RDDEB p`, where `p` is `0` or `1` (R59). -/
def portOperand (t : List Char) : Option Word :=
  if t = "0".toList then some (encode (.rddeb .port0))
  else if t = "1".toList then some (encode (.rddeb .port1))
  else none

/-- The mnemonics without an operand (R59). -/
def plainMnemonic (m : List Char) : Option Word :=
  if m = "nop".toList then some (encode .nop)
  else if m = "tick".toList then some (encode .tick)
  else if m = "qnull".toList then some (encode .qnull)
  else if m = "rdq".toList then some (encode .rdq)
  else none

/-- The mnemonics, and `.word`, with their one operand (R59). -/
def operandMnemonic (m t : List Char) : Option Word :=
  if m = "rddeb".toList then portOperand t
  else if m = "quant".toList then quantOperand t
  else if m = ".word".toList then (hex 8 t).map (BitVec.ofNat 32)
  else none

/-- The words of one line: the mnemonic is first and case-insensitive (R59). `none`: not a line of the syntax. -/
def assembleTokens : List (List Char) → Option AsmLine
  | [] => some .blank
  | [m] => (plainMnemonic (m.map Char.toLower)).map .word
  | [m, t] => (operandMnemonic (m.map Char.toLower) t).map .word
  | _ :: _ :: _ :: _ => none

/-- One line of a listing (R59). -/
def assembleLine (line : String) : Option AsmLine :=
  assembleTokens (splitTokens (uncomment line.toList) [])

end Sys2Proof.Machine
end

