-- ==== Sys2Proof/Safety.lean ====
section
/-! DEFINITION. The terms in which claims about runs are said: the invariant of spec/10_state.md R31, what a
command may write, schedules of events, and the debouncer as a filter of its samples alone. -/

namespace Sys2Proof.Machine

/-! ## The invariant -/

/-- The invariant of R31 (a) to (d). The parts of (a) and (b) that are bounds (`Q_BKT` in 0 to 15,
`Q_DRV <= MAX_DRIVE`) follow from the field's width and from `driveOfBucket`. -/
structure Inv (s : State) : Prop where
  /-- (a) `Q_MW = SNAP[Q_BKT]`. -/
  resultSnapped : s.qMw = snap s.qBkt
  /-- (b) `Q_DRV = min(DRIVE_TABLE[Q_BKT], MAX_DRIVE)`. -/
  driveOfBucket : s.qDrv = drive s.params s.qBkt
  /-- (c) `Q_STAT` is not the reserved code. -/
  statusLegal : s.qStat ≠ 0b11#2
  /-- (d) Where the three samples of a bit agree, the debounced bit is theirs. -/
  historySettled : ∀ (p : Port) (i : Nat), i < 8 →
    (s.hist.get p).newest.getLsbD i = (s.hist.get p).middle.getLsbD i →
    (s.hist.get p).middle.getLsbD i = (s.hist.get p).oldest.getLsbD i →
    (s.deb.get p).getLsbD i = (s.hist.get p).newest.getLsbD i

/-- A safe state: once a reset has come since power-up, the invariant holds. Before that the fields are
unspecified (R142). -/
def Safe (s : State) : Prop := s.hasReset = true → Inv s

/-! ## Commands, events and schedules -/

/-- The event executes a word: no reset, `cmd_valid` high. -/
def Event.commandWord : Event → Option Word
  | .edge p => if p.rst then none else if p.cmdValid then some p.cmd else none
  | .powerCycle => none

/-- The event executes this legal command. -/
def Event.Executes (e : Event) (i : Instr) : Prop := ∃ w, e.commandWord = some w ∧ decode w = .ok i

/-- The event is a reset edge. -/
def Event.IsReset : Event → Prop
  | .edge p => p.rst = true
  | .powerCycle => False

/-- The event neither resets the block nor cuts its power. -/
def Event.KeepsState : Event → Prop
  | .edge p => p.rst = false
  | .powerCycle => False

/-- An edge that presents nothing: `rst = 0` and `cmd_valid = 0`. -/
def Event.IsIdle : Event → Prop
  | .edge p => p.rst = false ∧ p.cmdValid = false
  | .powerCycle => False

/-- A reset has come since power-up, and the next event is an edge that executes word `w`, with levels `raw` on the
raw ports; `rest` follows. -/
def State.Presents (s : State) (w : Word) (raw : PerPort Byte) (rest : List Event) : Prop :=
  s.hasReset = true ∧ s.events = .edge (commandPins w raw) :: rest

/-- No row of the opcode table matches the word: it is illegal (R51, R111). -/
def NoRowMatches (w : Word) : Prop := ∀ r ∈ opcodeTable, ¬ r.Matches w

/-- `s` with this schedule of events. -/
def State.withSchedule (s : State) (es : List Event) : State := { s with events := es }

/-- `k` steps, stopping at the first that answers no next state. -/
def run : Nat → State → Host.Outcome State Fault Refusal
  | 0, s => .next s
  | k + 1, s =>
    match step s with
    | .next t => run k t
    | .fault r => .fault r
    | .refused r => .refused r

/-- All of a schedule, event by event, from `s`. -/
def runSchedule (s : State) (es : List Event) : Host.Outcome State Fault Refusal :=
  run es.length (s.withSchedule es)

/-! ## The debouncer as a filter of its samples -/

/-- What the block holds of one port: its history and its debounced vector. -/
structure PortFilter where
  hist : History
  deb : Byte
deriving DecidableEq, Repr

/-- The debouncer's state for one port. -/
def State.portFilter (s : State) (p : Port) : PortFilter := ⟨s.hist.get p, s.deb.get p⟩

/-- One sample through the filter (R71, R72). -/
def PortFilter.sample (f : PortFilter) (x : Byte) : PortFilter :=
  ⟨pushSample f.hist x, filt f.deb x f.hist.newest f.hist.middle⟩

/-- The raw level of port `p` that this event samples: only the execution of a TICK samples (R24). -/
def Event.tickSample (p : Port) : Event → Option Byte
  | .edge pins =>
    match (Event.edge pins).commandWord with
    | some w =>
      match decode w with
      | .ok .tick => some (pins.raw.get p)
      | _ => none
    | none => none
  | .powerCycle => none

/-- The samples of port `p` that a schedule takes, in order. -/
def tickSamples (p : Port) (es : List Event) : List Byte := es.filterMap (Event.tickSample p)

/-- No three bits in a row of the list are all `v`. -/
def NoThreeEqual (v : Bool) : List Bool → Prop
  | a :: b :: c :: rest => ¬ (a = v ∧ b = v ∧ c = v) ∧ NoThreeEqual v (b :: c :: rest)
  | _ => True

end Sys2Proof.Machine
end

