-- ==== Sys2Proof/Certificates/Slice0/Obligations.lean ====
section
/-! DEFINITION. The statements for the provers. Each docstring names the sentence of spec/ that it formalises; where
a statement rests on an inference the spec marks as its own, or on a choice of this model, the docstring says so. An
equation `exec i s = .next { s with … }` is also the instruction's frame: every field it does not name is unchanged. -/

open Sys2Proof Sys2Proof.Machine

/-! ## Encoding -/

/-- Words written out from the encodings of R50 and R51, and illegal words of spec/95_test_vectors.md 2.1. -/
def Obligations.KnownWordsDecode : Prop :=
  decode 0x00000000#32 = .ok .nop ∧ decode 0x10000000#32 = .ok .tick ∧
  decode 0x20000000#32 = .ok (.rddeb .port0) ∧ decode 0x20000001#32 = .ok (.rddeb .port1) ∧
  decode 0x30000113#32 = .ok (.quant 275) ∧ decode 0x30008000#32 = .ok (.quant (-32768)) ∧
  decode 0x40000000#32 = .ok .qnull ∧ decode 0x50000000#32 = .ok .rdq ∧
  decode 0x10000001#32 = .error .sbzNonzero ∧ decode 0x30010000#32 = .error .sbzNonzero ∧
  decode 0x9ABCDEF0#32 = .error .reservedOpcode

/-- Every well-formed command is what the decoder reads from its word. -/
def Obligations.DecodeOfEncode : Prop :=
  ∀ i : Instr, i.WellFormed → decode (encode i) = .ok i

/-- A word the decoder reads as a command is the word of that command, which is well formed. -/
def Obligations.EncodeOfDecode : Prop :=
  ∀ (w : Word) (i : Instr), decode w = .ok i → i.WellFormed ∧ encode i = w

/-- R51: the table itself, "A word `w` is the command of a row exactly when `(w & mask) = match`", "At most one row
matches any word" and "A word that matches no row is illegal". -/
def Obligations.WordIsCommandOfItsRow : Prop :=
  opcodeTable.map (fun r => (r.mnemonic, r.pattern, r.mask)) =
    [("NOP", 0x00000000#32, 0xFFFFFFFF#32), ("TICK", 0x10000000#32, 0xFFFFFFFF#32),
     ("RDDEB", 0x20000000#32, 0xFFFFFFFE#32), ("QUANT", 0x30000000#32, 0xFFFF0000#32),
     ("QNULL", 0x40000000#32, 0xFFFFFFFF#32), ("RDQ", 0x50000000#32, 0xFFFFFFFF#32)] ∧
  ∀ w : Word,
    (∀ r ∈ opcodeTable, r.Matches w ↔ ∃ i, decode w = .ok i ∧ rowOf i = r) ∧
    (∀ r ∈ opcodeTable, ∀ r' ∈ opcodeTable, r.Matches w → r'.Matches w → r = r') ∧
    (NoRowMatches w ↔ ∃ e, decode w = .error e)

/-- R53: "A word with a defined opcode and any nonzero SBZ bit is illegal": the SBZ bits of formats Z, P and I, and
what the block does with such a word. -/
def Obligations.NonzeroSbzWordIsIllegal : Prop :=
  ∀ w : Word,
    ((opcodeField w = 0x0#4 ∨ opcodeField w = 0x1#4 ∨ opcodeField w = 0x4#4 ∨ opcodeField w = 0x5#4) ∧
        w.extractLsb' 0 28 ≠ 0#28 ∨
      opcodeField w = 0x2#4 ∧ w.extractLsb' 1 27 ≠ 0#27 ∨
      opcodeField w = 0x3#4 ∧ w.extractLsb' 16 12 ≠ 0#12) →
    (∃ e, decode w = .error e) ∧
    ∀ s raw rest, s.Presents w raw rest →
      step s = .next { s.present (commandPins w raw) rest with rsp := 0x80000000#32 }

/-- R54: "Every word with one of these opcodes is illegal, whatever its other bits". -/
def Obligations.ReservedOpcodeWordIsIllegal : Prop :=
  ∀ w : Word, 6 ≤ (opcodeField w).toNat →
    (∃ e, decode w = .error e) ∧
    ∀ s raw rest, s.Presents w raw rest →
      step s = .next { s.present (commandPins w raw) rest with rsp := 0x80000000#32 }

/-- The decoder names an illegal word `reservedOpcode` exactly when its opcode is one of `0x6` to `0xF`, and `sbzNonzero`
exactly when it is not. The two names are this model's choice (log entry 8). -/
def Obligations.IllegalWordIsNamedByItsOpcode : Prop :=
  ∀ w : Word, NoRowMatches w →
    (decode w = .error .reservedOpcode ↔ 6 ≤ (opcodeField w).toNat) ∧
    (decode w = .error .sbzNonzero ↔ (opcodeField w).toNat < 6)

/-- R59: "`QUANT n` encodes as `0x30000000 | (n & 0xFFFF)`, and `RDDEB p` as `0x20000000 | p`", the mnemonics without an
operand, the hexadecimal field, `.word`, a comment and case. -/
def Obligations.ListingLinesAssemble : Prop :=
  assembleLine "NOP" = some (.word 0x00000000#32) ∧ assembleLine "tick ; sample" = some (.word 0x10000000#32) ∧
  assembleLine "QNULL" = some (.word 0x40000000#32) ∧ assembleLine "Rdq" = some (.word 0x50000000#32) ∧
  assembleLine "RDDEB 1" = some (.word 0x20000001#32) ∧ assembleLine "RDDEB 2" = none ∧
  assembleLine "QUANT -5" = some (.word 0x3000FFFB#32) ∧ assembleLine "QUANT 32768" = none ∧
  assembleLine "QUANT 0xFFFB" = some (.word 0x3000FFFB#32) ∧
  assembleLine ".word 0x10000001" = some (.word 0x10000001#32) ∧ assembleLine "; comment" = some .blank

/-! ## The instructions: result, frame and completion -/

/-- R110: `rsp <- 0x00000000`; "State written: `RSP` only." -/
def Obligations.NopSetsResponseOnly : Prop :=
  decode 0x00000000#32 = .ok .nop ∧
  ∀ s : State, exec .nop s = .next { s with rsp := 0x00000000#32 }

/-- R71: both ports' history shifts in the raw sample, and their debounced vectors are the filter (R72, written out) of
the new sample and the two newest before it; the response is zero and nothing else changes. -/
def Obligations.TickSamplesShiftsAndFilters : Prop :=
  decode 0x10000000#32 = .ok .tick ∧
  ∀ s : State, exec .tick s = .next { s with
    hist :=
      { port0 := { newest := s.pins.raw.port0, middle := s.hist.port0.newest, oldest := s.hist.port0.middle }
        port1 := { newest := s.pins.raw.port1, middle := s.hist.port1.newest, oldest := s.hist.port1.middle } }
    deb :=
      { port0 := (s.pins.raw.port0 &&& s.hist.port0.newest &&& s.hist.port0.middle) |||
          (s.deb.port0 &&& (s.pins.raw.port0 ||| s.hist.port0.newest ||| s.hist.port0.middle))
        port1 := (s.pins.raw.port1 &&& s.hist.port1.newest &&& s.hist.port1.middle) |||
          (s.deb.port1 &&& (s.pins.raw.port1 ||| s.hist.port1.newest ||| s.hist.port1.middle)) }
    rsp := 0x00000000#32 }

/-- R75: `rsp <- zext_32(S.DEB[port])`; "State written: `RSP` only." -/
def Obligations.RddebReturnsDebouncedVector : Prop :=
  decode 0x20000000#32 = .ok (.rddeb .port0) ∧ decode 0x20000001#32 = .ok (.rddeb .port1) ∧
  ∀ s : State,
    exec (.rddeb .port0) s = .next { s with rsp := s.deb.port0.setWidth 32 } ∧
    exec (.rddeb .port1) s = .next { s with rsp := s.deb.port1.setWidth 32 }

/-- R95: the word of QUANT, and the bucket, power, drive level, status and response it writes; nothing else changes.
The request is a mathematical integer, so the second part holds for every integer. -/
def Obligations.QuantWritesResultAndStatus : Prop :=
  (∀ req : Int, -32768 ≤ req → req ≤ 32767 →
    decode (0x30000000#32 ||| (BitVec.ofInt 16 req).setWidth 32) = .ok (.quant req)) ∧
  ∀ (req : Int) (s : State) (b : BitVec 4) (st : BitVec 2),
    b = bucket (min (max req 0) (s.params.maxTxPowerMw.val : Int)) →
    st = (if req > (s.params.maxTxPowerMw.val : Int) then 0b01#2 else 0b00#2) →
    exec (.quant req) s = .next { s with
      qBkt := b
      qMw := snap b
      qDrv := drive s.params b
      qStat := st
      rsp := 0b00#2 ++ b ++ st ++ drive s.params b ++ snap b }

/-- R96: the status becomes `0b10`; "`Q_BKT`, `Q_MW`, `Q_DRV` unchanged"; the response is RQ of the values after the step. -/
def Obligations.QnullReportsLogicErrorOnly : Prop :=
  decode 0x40000000#32 = .ok .qnull ∧
  ∀ s : State, exec .qnull s = .next { s with
    qStat := 0b10#2
    rsp := 0b00#2 ++ s.qBkt ++ 0b10#2 ++ s.qDrv ++ s.qMw }

/-- R97: the response is RQ; "State written: `RSP` only." -/
def Obligations.RdqReturnsResult : Prop :=
  decode 0x50000000#32 = .ok .rdq ∧
  ∀ s : State, exec .rdq s = .next { s with rsp := 0b00#2 ++ s.qBkt ++ s.qStat ++ s.qDrv ++ s.qMw }

/-- R111, R123: a word that matches no row sets `ILL` in the response and changes no other field, and the pins are not
sampled; the block goes on. -/
def Obligations.IllegalWordSetsIllOnly : Prop :=
  ∀ (s : State) (w : Word) (raw : PerPort Byte) (rest : List Event),
    s.Presents w raw rest → NoRowMatches w →
    step s = .next { s.present (commandPins w raw) rest with rsp := 0x80000000#32 }

/-- R57: the response forms RZ, RD, RQ and RI, field by field, of the values after the command. -/
def Obligations.ResponseHasItsForm : Prop :=
  ∀ (w : Word) (s t : State), runWord w s = .next t →
    (decode w = .ok .nop ∨ decode w = .ok .tick → t.rsp = 0x00000000#32) ∧
    (∀ p, decode w = .ok (.rddeb p) →
      t.rsp.extractLsb' 0 8 = t.deb.get p ∧ t.rsp.extractLsb' 8 24 = 0#24) ∧
    ((∃ req, decode w = .ok (.quant req)) ∨ decode w = .ok .qnull ∨ decode w = .ok .rdq →
      t.rsp.extractLsb' 0 16 = t.qMw ∧ t.rsp.extractLsb' 16 8 = t.qDrv ∧ t.rsp.extractLsb' 24 2 = t.qStat ∧
      t.rsp.extractLsb' 26 4 = t.qBkt ∧ t.rsp.extractLsb' 30 2 = 0#2) ∧
    ((∃ e, decode w = .error e) → t.rsp = 0x80000000#32) ∧
    (t.rsp.getLsbD 31 = true ↔ ∃ e, decode w = .error e)

/-! ## The filter and the quantizer's functions -/

/-- R72: the filter per bit, "the bit changes exactly when all three most recent samples agree and differ from `d`", and
the formula on whole vectors. -/
def Obligations.FilterTakesAgreeingSamples : Prop :=
  ∀ d a b c : Byte,
    filt d a b c = (a &&& b &&& c) ||| (d &&& (a ||| b ||| c)) ∧
    ∀ i : Nat,
      (filt d a b c).getLsbD i =
        (if a.getLsbD i = b.getLsbD i ∧ b.getLsbD i = c.getLsbD i then a.getLsbD i else d.getLsbD i) ∧
      ((filt d a b c).getLsbD i ≠ d.getLsbD i ↔
        a.getLsbD i = b.getLsbD i ∧ b.getLsbD i = c.getLsbD i ∧ a.getLsbD i ≠ d.getLsbD i)

/-- R90: the sixteen rows of the bucket table, the bounds rising strictly, and each snapped value in its own bucket. -/
def Obligations.BucketTableAsGiven : Prop :=
  (∀ c : Int,
    (c < 5 → bucket c = 0#4 ∧ snap (bucket c) = 0#16) ∧
    (5 ≤ c → c < 50 → bucket c = 1#4 ∧ snap (bucket c) = 10#16) ∧
    (50 ≤ c → c < 150 → bucket c = 2#4 ∧ snap (bucket c) = 100#16) ∧
    (150 ≤ c → c < 250 → bucket c = 3#4 ∧ snap (bucket c) = 200#16) ∧
    (250 ≤ c → c < 350 → bucket c = 4#4 ∧ snap (bucket c) = 300#16) ∧
    (350 ≤ c → c < 450 → bucket c = 5#4 ∧ snap (bucket c) = 400#16) ∧
    (450 ≤ c → c < 550 → bucket c = 6#4 ∧ snap (bucket c) = 500#16) ∧
    (550 ≤ c → c < 650 → bucket c = 7#4 ∧ snap (bucket c) = 600#16) ∧
    (650 ≤ c → c < 900 → bucket c = 8#4 ∧ snap (bucket c) = 800#16) ∧
    (900 ≤ c → c < 1250 → bucket c = 9#4 ∧ snap (bucket c) = 1000#16) ∧
    (1250 ≤ c → c < 1750 → bucket c = 10#4 ∧ snap (bucket c) = 1500#16) ∧
    (1750 ≤ c → c < 2250 → bucket c = 11#4 ∧ snap (bucket c) = 2000#16) ∧
    (2250 ≤ c → c < 2750 → bucket c = 12#4 ∧ snap (bucket c) = 2500#16) ∧
    (2750 ≤ c → c < 3500 → bucket c = 13#4 ∧ snap (bucket c) = 3000#16) ∧
    (3500 ≤ c → c < 4500 → bucket c = 14#4 ∧ snap (bucket c) = 4000#16) ∧
    (4500 ≤ c → bucket c = 15#4 ∧ snap (bucket c) = 5000#16)) ∧
  (∀ i j : Nat, i < j → j < 15 → bounds.getD i 0 < bounds.getD j 0) ∧
  (∀ b : BitVec 4, bucket ((snap b).toNat : Int) = b)

/-- R91: the clamp, and when the original request exceeds the maximum. -/
def Obligations.ClampedRequestInRange : Prop :=
  ∀ (p : Params) (req : Int),
    clampRequest p req = min (max req 0) (p.maxTxPowerMw.val : Int) ∧
    0 ≤ clampRequest p req ∧ clampRequest p req ≤ (p.maxTxPowerMw.val : Int) ∧
    (req < 0 → clampRequest p req = 0 ∧ ¬ Over p req) ∧
    (Over p req ↔ req > (p.maxTxPowerMw.val : Int))

/-- R92: "The bucket of a clamped request `c` is the least `i` in 0 to 14 with `c < BOUND[i]`, or 15 when there is
none", and "The quantized power is `SNAP[bucket(c)]`". -/
def Obligations.BucketIsLeastBoundAbove : Prop :=
  (∀ (c : Int) (i : Nat), i < 15 →
    (bucket c = BitVec.ofNat 4 i ↔ c < bounds.getD i 0 ∧ ∀ j, j < i → bounds.getD j 0 ≤ c)) ∧
  (∀ c : Int, bucket c = 15#4 ↔ ∀ j, j < 15 → bounds.getD j 0 ≤ c) ∧
  (∀ (req : Int) (s : State), ∃ t, exec (.quant req) s = .next t ∧
    t.qMw = snap (bucket (clampRequest s.params req)))

/-- R93: `drive(b) = min(uint(DRIVE_TABLE[b]), uint(MAX_DRIVE))`. -/
def Obligations.DriveIsClampedTableEntry : Prop :=
  ∀ (p : Params) (b : Fin 16),
    (drive p (BitVec.ofFin b)).toNat = min (p.driveTable[b]).toNat p.maxDrive.toNat

/-- R94: `PowerLevelNotSupported` exactly when the request exceeds the maximum, in `Q_STAT` and in
`rsp[25:24]`, with the result of the clamped request written in full. -/
def Obligations.OverRangeRequestIsReportedAndQuantized : Prop :=
  ∀ (req : Int) (s : State), ∃ t, exec (.quant req) s = .next t ∧
    (req > (s.params.maxTxPowerMw.val : Int) → t.qStat = 0b01#2 ∧ t.rsp.extractLsb' 24 2 = 0b01#2) ∧
    (¬ req > (s.params.maxTxPowerMw.val : Int) → t.qStat = 0b00#2 ∧ t.rsp.extractLsb' 24 2 = 0b00#2) ∧
    t.qBkt = bucket (clampRequest s.params req) ∧ t.qMw = snap (bucket (clampRequest s.params req)) ∧
    t.qDrv = drive s.params (bucket (clampRequest s.params req))

/-- R121 and R122: only a QUANT above the maximum raises `PowerLevelNotSupported`, and only a QNULL raises
`LogicError`; the one writes the result of the clamped request in full, the other leaves the result alone. -/
def Obligations.ConditionsHaveTheirOnlyCause : Prop :=
  ∀ (s t : State) (e : Event) (rest : List Event),
    s.events = e :: rest → e ≠ .powerCycle → step s = .next t →
    (t.qStat = 0b01#2 → s.qStat ≠ 0b01#2 →
      ∃ req, e.Executes (.quant req) ∧ req > (s.params.maxTxPowerMw.val : Int)) ∧
    (t.qStat = 0b10#2 → s.qStat ≠ 0b10#2 → e.Executes .qnull) ∧
    (∀ req, e.Executes (.quant req) → req > (s.params.maxTxPowerMw.val : Int) →
      t.qStat = 0b01#2 ∧ t.rsp.extractLsb' 24 2 = 0b01#2 ∧ t.qBkt = requestBucket s.params req ∧
      t.qMw = snap t.qBkt ∧ t.qDrv = drive s.params t.qBkt) ∧
    (e.Executes .qnull → t.qStat = 0b10#2 ∧ t.rsp.extractLsb' 24 2 = 0b10#2 ∧
      t.qMw = s.qMw ∧ t.qDrv = s.qDrv ∧ t.qBkt = s.qBkt)

/-- The quantizer is monotone in the request. It rests on spec/41_quantizer.md section 5 (a), which the spec marks as
derived: "`quantize(mw)` is monotonically non-decreasing in its quantized output as `mw` increases". -/
def Obligations.QuantizerIsMonotone : Prop :=
  ∀ (p : Params) (req₁ req₂ : Int), req₁ ≤ req₂ →
    (requestBucket p req₁).toNat ≤ (requestBucket p req₂).toNat ∧
    (snap (requestBucket p req₁)).toNat ≤ (snap (requestBucket p req₂)).toNat

/-- A QUANT of a snapped value within the maximum gives that value again. It rests on spec/41_quantizer.md section 5 (c),
which the spec marks as derived. -/
def Obligations.SnappedRequestIsItsOwnResult : Prop :=
  ∀ (s : State) (b : BitVec 4), (snap b).toNat ≤ s.params.maxTxPowerMw.val →
    ∃ t, exec (.quant ((snap b).toNat : Int)) s = .next t ∧ t.qBkt = b ∧ t.qMw = snap b ∧ t.qStat = 0b00#2

/-- The request just above the maximum: the clamped request is the maximum, and the quantized power is the maximum only
when that is a snapped value. It rests on spec/41_quantizer.md section 5 (e), which the spec marks as derived, and on
spec/90_conflicts.md C3. -/
def Obligations.RequestJustAboveMaximum : Prop :=
  ∀ s : State, ∃ t, exec (.quant ((s.params.maxTxPowerMw.val : Int) + 1)) s = .next t ∧
    t.qStat = 0b01#2 ∧ t.qMw = snap (bucket (s.params.maxTxPowerMw.val : Int)) ∧
    (t.qMw.toNat = s.params.maxTxPowerMw.val ↔ ∃ b, (snap b).toNat = s.params.maxTxPowerMw.val)

/-- Which buckets a maximum lets a request reach. It rests on spec/41_quantizer.md section 5, "Buckets whose lower bound
exceeds `MAX_TX_POWER_MW` cannot be reached", which the spec marks as derived. -/
def Obligations.MaximumLimitsTheBuckets : Prop :=
  ∀ p : Params,
    (∀ (req : Int) (i : Nat), i < 15 → (p.maxTxPowerMw.val : Int) < bounds.getD i 0 →
      (requestBucket p req).toNat ≤ i) ∧
    (p.maxTxPowerMw.val = 5000 → ∀ b : BitVec 4, ∃ req : Int, RequestInRange req ∧ requestBucket p req = b)

/-- "The result depends only on `req` and the parameters, never on earlier commands" (spec/41_quantizer.md, QUANT's
corner cases). -/
def Obligations.QuantIgnoresEarlierCommands : Prop :=
  ∀ (req : Int) (s u : State), s.params = u.params →
    ∃ t v, exec (.quant req) s = .next t ∧ exec (.quant req) u = .next v ∧
      t.qBkt = v.qBkt ∧ t.qMw = v.qMw ∧ t.qDrv = v.qDrv ∧ t.qStat = v.qStat ∧ t.rsp = v.rsp

/-! ## Reset, power and idle edges -/

/-- R33, R140, R141: at every edge with `rst = 1`, whatever `cmd_valid` and `cmd` are and whether or not a reset has come
before, every field takes its reset value; the command is not executed. The parameters stay. R33: "This leaves the quantizer
as if a QUANT of 0 had executed". -/
def Obligations.ResetEdgeSetsEveryField : Prop :=
  ∀ (s : State) (p : Pins) (rest : List Event), s.events = .edge p :: rest → p.rst = true →
    step s = .next
      { hist := { port0 := { newest := 0x00#8, middle := 0x00#8, oldest := 0x00#8 }
                  port1 := { newest := 0x00#8, middle := 0x00#8, oldest := 0x00#8 } }
        deb := { port0 := 0x00#8, port1 := 0x00#8 }
        qMw := 0#16
        qBkt := 0#4
        qDrv := BitVec.ofNat 8 (min s.params.driveTable[0].toNat s.params.maxDrive.toNat)
        qStat := 0b00#2
        rsp := 0x00000000#32
        params := s.params
        hasReset := true
        pins := p
        events := rest
        taken := s.taken + 1 } ∧
    ∃ t, exec (.quant 0) s = .next t ∧ t.qMw = 0#16 ∧ t.qBkt = 0#4 ∧ t.qStat = 0b00#2 ∧
      t.qDrv = BitVec.ofNat 8 (min s.params.driveTable[0].toNat s.params.maxDrive.toNat)

/-- R142: "A model must not give a meaning to a command executed before the first reset; it refuses one." That a reset has
come since power-up is the field `hasReset`, this model's way to say it (log entry 4). -/
def Obligations.CommandBeforeResetIsRefused : Prop :=
  ∀ (s : State) (p : Pins) (rest : List Event), s.events = .edge p :: rest → s.hasReset = false →
    p.rst = false → p.cmdValid = true → step s = .refused .commandBeforeReset

/-- The state from which every run starts has every field of spec/10_state.md section 6 at its reset value, for every
parameter set. This model's choices: `State.reset` takes the parameters of Config (log entry 1), and in it no event is
scheduled, no free value has been used and a reset has come (log entries 2 and 4). -/
def Obligations.ResetStateHasTheResetValues : Prop :=
  (∀ p : Params,
    (∀ q : Port, ((State.initial p).hist.get q).newest = 0x00#8 ∧ ((State.initial p).hist.get q).middle = 0x00#8 ∧
      ((State.initial p).hist.get q).oldest = 0x00#8 ∧ (State.initial p).deb.get q = 0x00#8) ∧
    (State.initial p).qMw = 0#16 ∧ (State.initial p).qBkt = 0#4 ∧
    (State.initial p).qDrv.toNat = min p.driveTable[0].toNat p.maxDrive.toNat ∧
    (State.initial p).qStat = 0b00#2 ∧ (State.initial p).rsp = 0x00000000#32 ∧
    (State.initial p).params = p ∧ (State.initial p).hasReset = true ∧
    (State.initial p).events = [] ∧ (State.initial p).taken = 0) ∧
  State.reset = State.initial Config.params

/-- "At an edge with `rst = 0` and `cmd_valid = 0`, no field changes, `RSP` included" (spec/10_state.md section 3). Only the
model's own record of the edge does. -/
def Obligations.IdleEdgeChangesNoField : Prop :=
  ∀ (s : State) (p : Pins) (rest : List Event), s.events = .edge p :: rest → p.rst = false → p.cmdValid = false →
    step s = .next { s with pins := p, events := rest, taken := s.taken + 1 }

/-- "The block keeps no state across a power loss" (spec/10_state.md section 5): two blocks that differ in any field of the
state record come to the same state, which awaits a reset. That a loss of power is an event, and that the fields after it
are free values, is this model's choice (log entry 4). -/
def Obligations.PowerCycleLosesTheState : Prop :=
  ∀ (s u : State) (rest : List Event), s.events = .powerCycle :: rest → u.events = .powerCycle :: rest →
    s.params = u.params → s.pins = u.pins → s.taken = u.taken →
    ∃ t, step s = .next t ∧ step u = .next t ∧ t.hasReset = false ∧ t.params = s.params

/-! ## The step -/

/-- A step whose event executes a word that decodes to `i` is `exec i`, at the state with that edge's pins. -/
def Obligations.StepRunsDecodedCommand : Prop :=
  ∀ (s : State) (w : Word) (raw : PerPort Byte) (rest : List Event) (i : Instr),
    s.Presents w raw rest → decode w = .ok i → step s = exec i (s.present (commandPins w raw) rest)

/-- The word that `withFetchWord` presents is the one the very next step runs (log entry 5). -/
def Obligations.PresentedWordRunsNext : Prop :=
  ∀ (s : State) (nbits w : Nat) (i : Instr), s.hasReset = true → decodeTableWord nbits w = some i →
    ∃ raw, step (s.withFetchWord nbits w) = exec i (s.present (commandPins (wordOfTable nbits w) raw) s.events)

/-- A step answers a next state, but for a command before the first reset: the block has no trap (spec/60_exceptions.md
section 3) and an illegal word does not hang it (spec/42_control.md section 2). -/
def Obligations.EveryStepCompletesOnceReset : Prop :=
  ∀ s : State, (∃ t, step s = .next t) ∨
    (step s = .refused .commandBeforeReset ∧ s.hasReset = false ∧
      ∃ e rest w, s.events = e :: rest ∧ e.commandWord = some w)

/-- The parameters "are fixed when the block is built" (spec/10_state.md section 4): no step writes them. -/
def Obligations.ParametersNeverChange : Prop :=
  ∀ s t : State, step s = .next t → t.params = s.params

/-- R25: `H[p]` "holds the three most recent raw samples of port `p`"; "Only TICK writes it" (and reset); and "No command
reads `H` directly": no response depends on it, nor does any debounced vector after a command other than TICK. -/
def Obligations.HistoryIsHidden : Prop :=
  (∀ (s t : State) (e : Event) (rest : List Event), s.events = e :: rest → step s = .next t →
    e ≠ .powerCycle → ¬ e.IsReset → ¬ e.Executes .tick → t.hist = s.hist) ∧
  (∀ (w : Word) (s : State) (h : PerPort History), ∃ t u, runWord w s = .next t ∧
    runWord w { s with hist := h } = .next u ∧ t.rsp = u.rsp ∧ t.qMw = u.qMw ∧ t.qDrv = u.qDrv ∧
    t.qBkt = u.qBkt ∧ t.qStat = u.qStat ∧ (decode w ≠ .ok .tick → t.deb = u.deb)) ∧
  (∀ s : State, ∃ t, exec .tick s = .next t ∧ ∀ p : Port,
    (t.hist.get p).newest = s.pins.raw.get p ∧ (t.hist.get p).middle = (s.hist.get p).newest ∧
    (t.hist.get p).oldest = (s.hist.get p).middle)

/-- R27: "Only QUANT writes them" (and reset): `Q_MW`, `Q_DRV` and `Q_BKT` hold the result of the last QUANT; RDQ reads
them, "and so does the response of QUANT and QNULL". -/
def Obligations.ResultWrittenOnlyByQuant : Prop :=
  ∀ (s t : State) (e : Event) (rest : List Event), s.events = e :: rest → step s = .next t →
    e ≠ .powerCycle → ¬ e.IsReset →
    (∀ req, e.Executes (.quant req) →
      t.qBkt = requestBucket s.params req ∧ t.qMw = snap t.qBkt ∧ t.qDrv = drive s.params t.qBkt) ∧
    ((∀ req, ¬ e.Executes (.quant req)) → t.qMw = s.qMw ∧ t.qDrv = s.qDrv ∧ t.qBkt = s.qBkt) ∧
    ((∃ req, e.Executes (.quant req)) ∨ e.Executes .qnull ∨ e.Executes .rdq →
      t.rsp = 0b00#2 ++ t.qBkt ++ t.qStat ++ t.qDrv ++ t.qMw)

/-- R28: "QUANT and QNULL write `Q_STAT`. Reset writes `NoError`. No other command writes it." The reserved code is never
written. -/
def Obligations.StatusWrittenByQuantQnullAndReset : Prop :=
  ∀ (s t : State) (e : Event) (rest : List Event), s.events = e :: rest → step s = .next t → e ≠ .powerCycle →
    (e.IsReset → t.qStat = 0b00#2) ∧
    (∀ req, e.Executes (.quant req) →
      t.qStat = if req > (s.params.maxTxPowerMw.val : Int) then 0b01#2 else 0b00#2) ∧
    (e.Executes .qnull → t.qStat = 0b10#2) ∧
    (¬ e.IsReset → (∀ req, ¬ e.Executes (.quant req)) → ¬ e.Executes .qnull → t.qStat = s.qStat) ∧
    (s.qStat ≠ 0b11#2 → t.qStat ≠ 0b11#2)

/-- R150: idle edges leave `rsp` unchanged, and "`deb0` and `deb1` change only at the edge of a TICK or a reset". -/
def Obligations.OutputsHoldBetweenCommands : Prop :=
  ∀ (s t : State) (e : Event) (rest : List Event), s.events = e :: rest → step s = .next t → e ≠ .powerCycle →
    (t.outRsp ≠ s.outRsp → e.IsReset ∨ ∃ w, e.commandWord = some w) ∧
    (t.outDeb0 ≠ s.outDeb0 ∨ t.outDeb1 ≠ s.outDeb1 → e.IsReset ∨ e.Executes .tick)

/-- Every command but TICK, issued twice in a row, gives the same response and the same state both times. It rests on
spec/20_memory.md section 2, "Issuing one twice in a row gives the same response and the same state both times", which the
spec marks as derived and says of RDDEB, RDQ and NOP; for QNULL and QUANT it rests on spec/41_quantizer.md. -/
def Obligations.RepeatedCommandIsIdempotent : Prop :=
  ∀ (i : Instr) (s : State), i ≠ .tick → ∃ t, exec i s = .next t ∧ exec i t = .next t

/-- R146: "a RDDEB right after a TICK returns that TICK's `DEB`, and a RDQ right after a QUANT returns that QUANT's
result". -/
def Obligations.ReadRightAfterWriteSeesIt : Prop :=
  ∀ s : State, s.hasReset = true →
    (∀ (raw raw' : PerPort Byte) (p : Port), ∃ t,
      runSchedule s [.edge (commandPins (encode .tick) raw), .edge (commandPins (encode (.rddeb p)) raw')] = .next t ∧
      t.deb.get p = filt (s.deb.get p) (raw.get p) (s.hist.get p).newest (s.hist.get p).middle ∧
      t.rsp = (t.deb.get p).setWidth 32) ∧
    (∀ (raw raw' : PerPort Byte) (req : Int), RequestInRange req → ∃ t,
      runSchedule s [.edge (commandPins (encode (.quant req)) raw), .edge (commandPins (encode .rdq) raw')] = .next t ∧
      t.qBkt = requestBucket s.params req ∧ t.qMw = snap (requestBucket s.params req) ∧
      t.qDrv = drive s.params (requestBucket s.params req) ∧
      t.rsp = 0b00#2 ++ t.qBkt ++ t.qStat ++ t.qDrv ++ t.qMw)

/-! ## The invariant -/

/-- The invariant holds in the reset state of every parameter set. It rests on spec/10_state.md section 5, which the spec
marks as derived. -/
def Obligations.InvariantHoldsAtReset : Prop :=
  (∀ p : Params, Inv (State.initial p)) ∧ Safe State.reset

/-- Every step keeps the invariant of spec/10_state.md section 5 (which the spec marks as derived), from every state that
meets it: a loss of power suspends it until the next reset edge. -/
def Obligations.StepKeepsInvariant : Prop :=
  ∀ s t : State, Safe s → step s = .next t → Safe t

/-- So it holds after any number of steps of any schedule, from the reset state of any parameter set. -/
def Obligations.ReachableStatesMeetInvariant : Prop :=
  ∀ (p : Params) (es : List Event) (k : Nat) (t : State),
    run k ((State.initial p).withSchedule es) = .next t → Safe t

/-! ## The debouncer over schedules -/

/-- R70: "Each of the `PORT_W` bits of each port is filtered independently of every other bit and of the other port": a
bit after a TICK depends on that bit's samples and debounced value alone. Both ports are sampled at one edge. -/
def Obligations.BitsAreFilteredIndependently : Prop :=
  ∀ (s u : State) (p : Port) (i : Nat),
    (s.pins.raw.get p).getLsbD i = (u.pins.raw.get p).getLsbD i →
    (s.hist.get p).newest.getLsbD i = (u.hist.get p).newest.getLsbD i →
    (s.hist.get p).middle.getLsbD i = (u.hist.get p).middle.getLsbD i →
    (s.deb.get p).getLsbD i = (u.deb.get p).getLsbD i →
    ∃ t v, exec .tick s = .next t ∧ exec .tick u = .next v ∧
      (t.deb.get p).getLsbD i = (v.deb.get p).getLsbD i ∧
      (t.hist.get .port0).newest = s.pins.raw.get .port0 ∧ (t.hist.get .port1).newest = s.pins.raw.get .port1

/-- A TICK whose three most recent samples of a bit are not all equal leaves that debounced bit unchanged. It rests on
spec/40_debouncer.md section 3, "that TICK leaves the debounced bit unchanged", which the spec marks as derived. -/
def Obligations.DisagreeingSamplesHoldTheBit : Prop :=
  ∀ (s : State) (p : Port) (i : Nat),
    ¬ ((s.pins.raw.get p).getLsbD i = (s.hist.get p).newest.getLsbD i ∧
       (s.hist.get p).newest.getLsbD i = (s.hist.get p).middle.getLsbD i) →
    ∃ t, exec .tick s = .next t ∧ (t.deb.get p).getLsbD i = (s.deb.get p).getLsbD i

/-- R77: "The block gives the same result for a sequence of TICKs whatever time passes between them, and whatever other
commands come between them": over every schedule without a reset or a loss of power, a port's history and debounced
vector are the filter run over the samples its TICKs took, and the run completes. -/
def Obligations.DebouncerIsTheFilterOfItsSamples : Prop :=
  ∀ (s : State) (es : List Event), s.hasReset = true → (∀ e ∈ es, e.KeepsState) →
    ∃ t, runSchedule s es = .next t ∧
      ∀ p : Port, t.portFilter p = (tickSamples p es).foldl PortFilter.sample (s.portFilter p)

/-- Three equal samples of a bit in a row bring its debounced bit to their value, whatever it was and whatever other
commands come between. It rests on spec/40_debouncer.md section 3, which the spec marks as derived. -/
def Obligations.ThreeEqualSamplesConverge : Prop :=
  ∀ (s : State) (es : List Event) (p : Port) (i : Nat) (v : Bool) (before : List Byte) (x y z : Byte),
    s.hasReset = true → (∀ e ∈ es, e.KeepsState) → tickSamples p es = before ++ [x, y, z] →
    x.getLsbD i = v → y.getLsbD i = v → z.getLsbD i = v →
    ∃ t, runSchedule s es = .next t ∧ (t.deb.get p).getLsbD i = v

/-- A bit whose samples never differ from its debounced value three times in a row, counting the two newest samples of the
history, keeps that value: no glitch of one or two TICKs and no alternation reaches `DEB`. It rests on
spec/40_debouncer.md section 5, which the spec marks as derived. -/
def Obligations.GlitchesNeverReachTheOutput : Prop :=
  ∀ (s : State) (es : List Event) (p : Port) (i : Nat) (d : Bool),
    s.hasReset = true → (∀ e ∈ es, e.KeepsState) → (s.deb.get p).getLsbD i = d →
    NoThreeEqual (!d)
      ((s.hist.get p).middle.getLsbD i :: (s.hist.get p).newest.getLsbD i ::
        (tickSamples p es).map (fun x => x.getLsbD i)) →
    ∃ t, runSchedule s es = .next t ∧ (t.deb.get p).getLsbD i = d

/-- After reset the debounced vector is zero through the first two samples and the conjunction of the first three at the
third; at the third and every later sample a bit whose three most recent samples agree has their value, and a bit that has
only been sampled at 0 is 0 throughout. It rests on spec/70_reset_and_hazards.md section 2, which the spec marks as
derived. -/
def Obligations.OutputsAfterResetNeedThreeSamples : Prop :=
  ∀ (q : Params) (es : List Event) (p : Port), (∀ e ∈ es, e.KeepsState) →
    ∃ t, runSchedule (State.initial q) es = .next t ∧
      ((tickSamples p es).length ≤ 2 → t.deb.get p = 0x00#8) ∧
      (∀ x y z, tickSamples p es = [x, y, z] → t.deb.get p = x &&& y &&& z) ∧
      (∀ before x y z, tickSamples p es = before ++ [x, y, z] → ∀ i : Nat,
        x.getLsbD i = y.getLsbD i → y.getLsbD i = z.getLsbD i → (t.deb.get p).getLsbD i = z.getLsbD i) ∧
      (∀ i : Nat, (∀ x ∈ tickSamples p es, x.getLsbD i = false) → (t.deb.get p).getLsbD i = false)
end

