-- ==== Sys2Proof/Laws/State.lean ====
section
/-! SUPPORT. One lemma for each field and each update of the state, true by `rfl`, so that no proof unfolds a record
update. -/

namespace Sys2Proof.Machine

variable (s : State)

/-! ## `respond` -/

@[simp] theorem State.respond_hist (v : Word) : (s.respond v).hist = s.hist := rfl
@[simp] theorem State.respond_deb (v : Word) : (s.respond v).deb = s.deb := rfl
@[simp] theorem State.respond_qMw (v : Word) : (s.respond v).qMw = s.qMw := rfl
@[simp] theorem State.respond_qDrv (v : Word) : (s.respond v).qDrv = s.qDrv := rfl
@[simp] theorem State.respond_qBkt (v : Word) : (s.respond v).qBkt = s.qBkt := rfl
@[simp] theorem State.respond_qStat (v : Word) : (s.respond v).qStat = s.qStat := rfl
@[simp] theorem State.respond_rsp (v : Word) : (s.respond v).rsp = v := rfl
@[simp] theorem State.respond_params (v : Word) : (s.respond v).params = s.params := rfl
@[simp] theorem State.respond_hasReset (v : Word) : (s.respond v).hasReset = s.hasReset := rfl
@[simp] theorem State.respond_pins (v : Word) : (s.respond v).pins = s.pins := rfl
@[simp] theorem State.respond_events (v : Word) : (s.respond v).events = s.events := rfl
@[simp] theorem State.respond_taken (v : Word) : (s.respond v).taken = s.taken := rfl

/-! ## `setDebouncer` -/

@[simp] theorem State.setDebouncer_hist (h : PerPort History) (d : PerPort Byte) :
    (s.setDebouncer h d).hist = h := rfl
@[simp] theorem State.setDebouncer_deb (h : PerPort History) (d : PerPort Byte) : (s.setDebouncer h d).deb = d := rfl
@[simp] theorem State.setDebouncer_qMw (h : PerPort History) (d : PerPort Byte) :
    (s.setDebouncer h d).qMw = s.qMw := rfl
@[simp] theorem State.setDebouncer_qDrv (h : PerPort History) (d : PerPort Byte) :
    (s.setDebouncer h d).qDrv = s.qDrv := rfl
@[simp] theorem State.setDebouncer_qBkt (h : PerPort History) (d : PerPort Byte) :
    (s.setDebouncer h d).qBkt = s.qBkt := rfl
@[simp] theorem State.setDebouncer_qStat (h : PerPort History) (d : PerPort Byte) :
    (s.setDebouncer h d).qStat = s.qStat := rfl
@[simp] theorem State.setDebouncer_rsp (h : PerPort History) (d : PerPort Byte) :
    (s.setDebouncer h d).rsp = s.rsp := rfl
@[simp] theorem State.setDebouncer_params (h : PerPort History) (d : PerPort Byte) :
    (s.setDebouncer h d).params = s.params := rfl
@[simp] theorem State.setDebouncer_hasReset (h : PerPort History) (d : PerPort Byte) :
    (s.setDebouncer h d).hasReset = s.hasReset := rfl
@[simp] theorem State.setDebouncer_pins (h : PerPort History) (d : PerPort Byte) :
    (s.setDebouncer h d).pins = s.pins := rfl
@[simp] theorem State.setDebouncer_events (h : PerPort History) (d : PerPort Byte) :
    (s.setDebouncer h d).events = s.events := rfl
@[simp] theorem State.setDebouncer_taken (h : PerPort History) (d : PerPort Byte) :
    (s.setDebouncer h d).taken = s.taken := rfl

/-! ## `setResult` -/

@[simp] theorem State.setResult_hist (b : BitVec 4) (m : BitVec 16) (d : BitVec 8) :
    (s.setResult b m d).hist = s.hist := rfl
@[simp] theorem State.setResult_deb (b : BitVec 4) (m : BitVec 16) (d : BitVec 8) :
    (s.setResult b m d).deb = s.deb := rfl
@[simp] theorem State.setResult_qMw (b : BitVec 4) (m : BitVec 16) (d : BitVec 8) : (s.setResult b m d).qMw = m := rfl
@[simp] theorem State.setResult_qDrv (b : BitVec 4) (m : BitVec 16) (d : BitVec 8) :
    (s.setResult b m d).qDrv = d := rfl
@[simp] theorem State.setResult_qBkt (b : BitVec 4) (m : BitVec 16) (d : BitVec 8) :
    (s.setResult b m d).qBkt = b := rfl
@[simp] theorem State.setResult_qStat (b : BitVec 4) (m : BitVec 16) (d : BitVec 8) :
    (s.setResult b m d).qStat = s.qStat := rfl
@[simp] theorem State.setResult_rsp (b : BitVec 4) (m : BitVec 16) (d : BitVec 8) :
    (s.setResult b m d).rsp = s.rsp := rfl
@[simp] theorem State.setResult_params (b : BitVec 4) (m : BitVec 16) (d : BitVec 8) :
    (s.setResult b m d).params = s.params := rfl
@[simp] theorem State.setResult_hasReset (b : BitVec 4) (m : BitVec 16) (d : BitVec 8) :
    (s.setResult b m d).hasReset = s.hasReset := rfl
@[simp] theorem State.setResult_pins (b : BitVec 4) (m : BitVec 16) (d : BitVec 8) :
    (s.setResult b m d).pins = s.pins := rfl
@[simp] theorem State.setResult_events (b : BitVec 4) (m : BitVec 16) (d : BitVec 8) :
    (s.setResult b m d).events = s.events := rfl
@[simp] theorem State.setResult_taken (b : BitVec 4) (m : BitVec 16) (d : BitVec 8) :
    (s.setResult b m d).taken = s.taken := rfl

/-! ## `setStatus` -/

@[simp] theorem State.setStatus_hist (st : BitVec 2) : (s.setStatus st).hist = s.hist := rfl
@[simp] theorem State.setStatus_deb (st : BitVec 2) : (s.setStatus st).deb = s.deb := rfl
@[simp] theorem State.setStatus_qMw (st : BitVec 2) : (s.setStatus st).qMw = s.qMw := rfl
@[simp] theorem State.setStatus_qDrv (st : BitVec 2) : (s.setStatus st).qDrv = s.qDrv := rfl
@[simp] theorem State.setStatus_qBkt (st : BitVec 2) : (s.setStatus st).qBkt = s.qBkt := rfl
@[simp] theorem State.setStatus_qStat (st : BitVec 2) : (s.setStatus st).qStat = st := rfl
@[simp] theorem State.setStatus_rsp (st : BitVec 2) : (s.setStatus st).rsp = s.rsp := rfl
@[simp] theorem State.setStatus_params (st : BitVec 2) : (s.setStatus st).params = s.params := rfl
@[simp] theorem State.setStatus_hasReset (st : BitVec 2) : (s.setStatus st).hasReset = s.hasReset := rfl
@[simp] theorem State.setStatus_pins (st : BitVec 2) : (s.setStatus st).pins = s.pins := rfl
@[simp] theorem State.setStatus_events (st : BitVec 2) : (s.setStatus st).events = s.events := rfl
@[simp] theorem State.setStatus_taken (st : BitVec 2) : (s.setStatus st).taken = s.taken := rfl

/-! ## `respondResult` -/

@[simp] theorem State.respondResult_hist : s.respondResult.hist = s.hist := rfl
@[simp] theorem State.respondResult_deb : s.respondResult.deb = s.deb := rfl
@[simp] theorem State.respondResult_qMw : s.respondResult.qMw = s.qMw := rfl
@[simp] theorem State.respondResult_qDrv : s.respondResult.qDrv = s.qDrv := rfl
@[simp] theorem State.respondResult_qBkt : s.respondResult.qBkt = s.qBkt := rfl
@[simp] theorem State.respondResult_qStat : s.respondResult.qStat = s.qStat := rfl
@[simp] theorem State.respondResult_rsp : s.respondResult.rsp = rspQ s := rfl
@[simp] theorem State.respondResult_params : s.respondResult.params = s.params := rfl
@[simp] theorem State.respondResult_hasReset : s.respondResult.hasReset = s.hasReset := rfl
@[simp] theorem State.respondResult_pins : s.respondResult.pins = s.pins := rfl
@[simp] theorem State.respondResult_events : s.respondResult.events = s.events := rfl
@[simp] theorem State.respondResult_taken : s.respondResult.taken = s.taken := rfl

/-! ## `reportIllegal` -/

@[simp] theorem State.reportIllegal_hist : s.reportIllegal.hist = s.hist := rfl
@[simp] theorem State.reportIllegal_deb : s.reportIllegal.deb = s.deb := rfl
@[simp] theorem State.reportIllegal_qMw : s.reportIllegal.qMw = s.qMw := rfl
@[simp] theorem State.reportIllegal_qDrv : s.reportIllegal.qDrv = s.qDrv := rfl
@[simp] theorem State.reportIllegal_qBkt : s.reportIllegal.qBkt = s.qBkt := rfl
@[simp] theorem State.reportIllegal_qStat : s.reportIllegal.qStat = s.qStat := rfl
@[simp] theorem State.reportIllegal_rsp : s.reportIllegal.rsp = rspI := rfl
@[simp] theorem State.reportIllegal_params : s.reportIllegal.params = s.params := rfl
@[simp] theorem State.reportIllegal_hasReset : s.reportIllegal.hasReset = s.hasReset := rfl
@[simp] theorem State.reportIllegal_pins : s.reportIllegal.pins = s.pins := rfl
@[simp] theorem State.reportIllegal_events : s.reportIllegal.events = s.events := rfl
@[simp] theorem State.reportIllegal_taken : s.reportIllegal.taken = s.taken := rfl

/-! ## `applyReset` -/

@[simp] theorem State.applyReset_hist : s.applyReset.hist = ⟨⟨0#8, 0#8, 0#8⟩, ⟨0#8, 0#8, 0#8⟩⟩ := rfl
@[simp] theorem State.applyReset_deb : s.applyReset.deb = ⟨0#8, 0#8⟩ := rfl
@[simp] theorem State.applyReset_qMw : s.applyReset.qMw = 0#16 := rfl
@[simp] theorem State.applyReset_qDrv : s.applyReset.qDrv = resetDrive s.params := rfl
@[simp] theorem State.applyReset_qBkt : s.applyReset.qBkt = 0#4 := rfl
@[simp] theorem State.applyReset_qStat : s.applyReset.qStat = statNoError := rfl
@[simp] theorem State.applyReset_rsp : s.applyReset.rsp = 0x00000000#32 := rfl
@[simp] theorem State.applyReset_params : s.applyReset.params = s.params := rfl
@[simp] theorem State.applyReset_hasReset : s.applyReset.hasReset = true := rfl
@[simp] theorem State.applyReset_pins : s.applyReset.pins = s.pins := rfl
@[simp] theorem State.applyReset_events : s.applyReset.events = s.events := rfl
@[simp] theorem State.applyReset_taken : s.applyReset.taken = s.taken := rfl

/-! ## `powerUp` -/

@[simp] theorem State.powerUp_hist (rest : List Event) : (s.powerUp rest).hist = Config.powerUpHist s.taken := rfl
@[simp] theorem State.powerUp_deb (rest : List Event) : (s.powerUp rest).deb = Config.powerUpDeb s.taken := rfl
@[simp] theorem State.powerUp_qMw (rest : List Event) : (s.powerUp rest).qMw = Config.powerUpQMw s.taken := rfl
@[simp] theorem State.powerUp_qDrv (rest : List Event) : (s.powerUp rest).qDrv = Config.powerUpQDrv s.taken := rfl
@[simp] theorem State.powerUp_qBkt (rest : List Event) : (s.powerUp rest).qBkt = Config.powerUpQBkt s.taken := rfl
@[simp] theorem State.powerUp_qStat (rest : List Event) : (s.powerUp rest).qStat = Config.powerUpQStat s.taken := rfl
@[simp] theorem State.powerUp_rsp (rest : List Event) : (s.powerUp rest).rsp = Config.powerUpRsp s.taken := rfl
@[simp] theorem State.powerUp_params (rest : List Event) : (s.powerUp rest).params = s.params := rfl
@[simp] theorem State.powerUp_hasReset (rest : List Event) : (s.powerUp rest).hasReset = false := rfl
@[simp] theorem State.powerUp_pins (rest : List Event) : (s.powerUp rest).pins = s.pins := rfl
@[simp] theorem State.powerUp_events (rest : List Event) : (s.powerUp rest).events = rest := rfl
@[simp] theorem State.powerUp_taken (rest : List Event) : (s.powerUp rest).taken = s.taken + 1 := rfl

/-! ## `present` -/

@[simp] theorem State.present_hist (p : Pins) (rest : List Event) : (s.present p rest).hist = s.hist := rfl
@[simp] theorem State.present_deb (p : Pins) (rest : List Event) : (s.present p rest).deb = s.deb := rfl
@[simp] theorem State.present_qMw (p : Pins) (rest : List Event) : (s.present p rest).qMw = s.qMw := rfl
@[simp] theorem State.present_qDrv (p : Pins) (rest : List Event) : (s.present p rest).qDrv = s.qDrv := rfl
@[simp] theorem State.present_qBkt (p : Pins) (rest : List Event) : (s.present p rest).qBkt = s.qBkt := rfl
@[simp] theorem State.present_qStat (p : Pins) (rest : List Event) : (s.present p rest).qStat = s.qStat := rfl
@[simp] theorem State.present_rsp (p : Pins) (rest : List Event) : (s.present p rest).rsp = s.rsp := rfl
@[simp] theorem State.present_params (p : Pins) (rest : List Event) : (s.present p rest).params = s.params := rfl
@[simp] theorem State.present_hasReset (p : Pins) (rest : List Event) :
    (s.present p rest).hasReset = s.hasReset := rfl
@[simp] theorem State.present_pins (p : Pins) (rest : List Event) : (s.present p rest).pins = p := rfl
@[simp] theorem State.present_events (p : Pins) (rest : List Event) : (s.present p rest).events = rest := rfl
@[simp] theorem State.present_taken (p : Pins) (rest : List Event) : (s.present p rest).taken = s.taken + 1 := rfl

end Sys2Proof.Machine
end

