-- ==== Sys2Proof/Laws/Ops.lean ====
section
/-! SUPPORT. One lemma for each shared operation, which proofs cite in place of its definition. -/

namespace Sys2Proof

@[simp] theorem PerPort.get_port0 {α : Type} (x : PerPort α) : x.get .port0 = x.port0 := rfl
@[simp] theorem PerPort.get_port1 {α : Type} (x : PerPort α) : x.get .port1 = x.port1 := rfl

/-- Two per-port values are equal when they agree at each port. -/
theorem PerPort.eq_of_get {α : Type} {x y : PerPort α} (h : ∀ p, x.get p = y.get p) : x = y := by
  cases x
  cases y
  have h0 := h .port0
  have h1 := h .port1
  simp_all [PerPort.get]

/-- What was made from a function of the port reads as that function. -/
theorem PerPort.get_mk {α : Type} (f : Port → α) (p : Port) :
    (PerPort.mk (f .port0) (f .port1)).get p = f p := by
  cases p <;> rfl

namespace Machine

@[simp] theorem pushSample_newest (h : History) (x : Byte) : (pushSample h x).newest = x := rfl
@[simp] theorem pushSample_middle (h : History) (x : Byte) : (pushSample h x).middle = h.newest := rfl
@[simp] theorem pushSample_oldest (h : History) (x : Byte) : (pushSample h x).oldest = h.middle := rfl

/-- A reset edge leaves the reset state as it is. -/
theorem applyReset_initial (p : Params) : (State.initial p).applyReset = State.initial p := rfl

/-- `Q_DRV` after reset is the drive level of bucket 0. -/
theorem resetDrive_eq_drive (p : Params) : resetDrive p = drive p 0#4 := rfl

/-- The result fields decide the response of form RQ. -/
theorem rspQ_congr {s t : State} (hb : s.qBkt = t.qBkt) (hs : s.qStat = t.qStat) (hd : s.qDrv = t.qDrv)
    (hm : s.qMw = t.qMw) : rspQ s = rspQ t := by
  simp [rspQ, hb, hs, hd, hm]

/-- Each bit of the response of form RQ, from the field it stands in (R57). -/
theorem rspQ_getLsbD (s : State) (j : Nat) :
    (rspQ s).getLsbD j =
      if j < 16 then s.qMw.getLsbD j
      else if j - 16 < 8 then s.qDrv.getLsbD (j - 16)
      else if j - 24 < 2 then s.qStat.getLsbD (j - 24)
      else s.qBkt.getLsbD (j - 26) := by
  unfold rspQ
  simp only [BitVec.getLsbD_append, show j - 16 - 8 = j - 24 by omega, show j - 24 - 2 = j - 26 by omega]
  iterate 4 (split; · rfl)
  rw [BitVec.getLsbD_of_ge s.qBkt _ (by omega)]
  simp

/-! ## Finding a bucket -/

theorem firstAbove_le_length (bs : List Int) (c : Int) : firstAbove bs c ≤ bs.length := by
  induction bs with
  | nil => simp [firstAbove]
  | cons b bs ih =>
    simp only [firstAbove, List.length_cons]
    split <;> omega

/-- Every entry before the one found is not above `c`. -/
theorem getD_le_of_lt_firstAbove {bs : List Int} {c : Int} {j : Nat} (h : j < firstAbove bs c) :
    bs.getD j 0 ≤ c := by
  induction bs generalizing j with
  | nil => simp [firstAbove] at h
  | cons b bs ih =>
    simp only [firstAbove] at h
    split at h
    · omega
    · cases j with
      | zero => simpa using by omega
      | succ j => simpa using ih (by omega)

/-- The entry found is above `c`. -/
theorem lt_getD_firstAbove {bs : List Int} {c : Int} (h : firstAbove bs c < bs.length) :
    c < bs.getD (firstAbove bs c) 0 := by
  induction bs with
  | nil => simp at h
  | cons b bs ih =>
    simp only [firstAbove] at h ⊢
    split at h
    · simp [*]
    · rw [if_neg (by assumption)]
      simpa using ih (by simpa using h)

/-- A larger value is found no earlier. -/
theorem firstAbove_mono (bs : List Int) {c d : Int} (h : c ≤ d) : firstAbove bs c ≤ firstAbove bs d := by
  induction bs with
  | nil => simp [firstAbove]
  | cons b bs ih =>
    simp only [firstAbove]
    split <;> split <;> omega

/-- No bucket index is cut short by its 4 bits (R100). -/
theorem bucket_toNat (c : Int) : (bucket c).toNat = firstAbove bounds c := by
  have h := firstAbove_le_length bounds c
  have hl : bounds.length = 15 := rfl
  simp only [bucket, BitVec.toNat_ofNat]
  omega

end Machine

end Sys2Proof
end

