-- ==== Sys2Proof/Laws/PerInstr.lean ====
section
/-! SUPPORT. The families of statements made for each instruction. -/

namespace Sys2Proof.Laws

/-- The encoding of every command matches its row of the opcode table. -/
def EncodeMatchesRow.Statement (i : Instr) : Prop := (rowOf i).Matches (encode i)

/-- The immediate field stays within its 16 bits. -/
theorem immField_fits (req : Int) : immField req &&& 0xFFFF0000#32 = 0#32 := by
  have hm : (0xFFFF0000#32 : Word) = 0xFFFF#16 ++ 0#16 := by decide
  ext j hj
  rw [hm, BitVec.getElem_and, BitVec.getElem_append]
  by_cases h : j < 16
  · simp [h]
  · simp [immField, BitVec.getLsbD_of_ge _ j (Nat.le_of_not_lt h)]

theorem EncodeMatchesRow.nop : EncodeMatchesRow.Statement .nop := by
  unfold EncodeMatchesRow.Statement
  decide

theorem EncodeMatchesRow.tick : EncodeMatchesRow.Statement .tick := by
  unfold EncodeMatchesRow.Statement
  decide

theorem EncodeMatchesRow.rddeb (p : Port) : EncodeMatchesRow.Statement (.rddeb p) := by
  unfold EncodeMatchesRow.Statement
  cases p <;> decide

theorem EncodeMatchesRow.quant (req : Int) : EncodeMatchesRow.Statement (.quant req) := by
  have hp : (0x30000000#32 : Word) &&& 0xFFFF0000#32 = 0x30000000#32 := by decide
  show (0x30000000#32 ||| immField req) &&& 0xFFFF0000#32 = 0x30000000#32
  rw [BitVec.and_comm, BitVec.and_or_distrib_left, BitVec.and_comm, BitVec.and_comm _ (immField req),
    immField_fits, hp, BitVec.or_zero]

theorem EncodeMatchesRow.qnull : EncodeMatchesRow.Statement .qnull := by
  unfold EncodeMatchesRow.Statement
  decide

theorem EncodeMatchesRow.rdq : EncodeMatchesRow.Statement .rdq := by
  unfold EncodeMatchesRow.Statement
  decide

end Sys2Proof.Laws
end

