-- ==== Sys2Proof/Laws/Step.lean ====
section
/-! SUPPORT. What a command and a step can do, said once: frames that hold of every command, the cases of a step, and
runs of schedules. -/

namespace Sys2Proof.Machine

/-- No command writes the parameters or the model's own fields. -/
theorem exec_frame {i : Instr} {s t : State} (h : exec i s = .next t) :
    t.params = s.params ∧ t.hasReset = s.hasReset ∧ t.pins = s.pins ∧ t.events = s.events ∧ t.taken = s.taken := by
  cases i <;> cases h <;> exact ⟨rfl, rfl, rfl, rfl, rfl⟩

/-- A command other than TICK leaves the debouncer alone. -/
theorem exec_debouncer {i : Instr} {s t : State} (h : exec i s = .next t) (hi : i ≠ .tick) :
    t.hist = s.hist ∧ t.deb = s.deb := by
  cases i <;> first | exact absurd rfl hi | (cases h; exact ⟨rfl, rfl⟩)

/-- What a word does: a command's meaning, or the report of an illegal word. -/
theorem runWord_cases {w : Word} {s t : State} (h : runWord w s = .next t) :
    (∃ i, decode w = .ok i ∧ exec i s = .next t) ∨ (∃ e, decode w = .error e ∧ t = s.reportIllegal) := by
  unfold runWord at h
  split at h
  · exact .inl ⟨_, ‹_›, h⟩
  · cases h
    exact .inr ⟨_, ‹_›, rfl⟩

/-- No word writes the parameters or the model's own fields. -/
theorem runWord_frame {w : Word} {s t : State} (h : runWord w s = .next t) :
    t.params = s.params ∧ t.hasReset = s.hasReset ∧ t.pins = s.pins ∧ t.events = s.events ∧ t.taken = s.taken := by
  rcases runWord_cases h with ⟨i, _, he⟩ | ⟨_, _, rfl⟩
  · exact exec_frame he
  · exact ⟨rfl, rfl, rfl, rfl, rfl⟩

/-- Everything a step that answers a next state can have done. -/
theorem step_cases {s t : State} (h : step s = .next t) :
    (s.events = [] ∧ t = s) ∨
    (∃ rest, s.events = .powerCycle :: rest ∧ t = s.powerUp rest) ∨
    (∃ p rest, s.events = .edge p :: rest ∧ p.rst = true ∧ t = (s.present p rest).applyReset) ∨
    (∃ p rest, s.events = .edge p :: rest ∧ p.rst = false ∧ p.cmdValid = false ∧ t = s.present p rest) ∨
    (∃ p rest, s.events = .edge p :: rest ∧ p.rst = false ∧ p.cmdValid = true ∧ s.hasReset = true ∧
      runWord p.cmd (s.present p rest) = .next t) := by
  unfold step takeEvent at h
  split at h
  · cases h
    exact .inl ⟨‹_›, rfl⟩
  · rename_i p rest he
    unfold clockEdge at h
    rw [State.present_pins, State.present_hasReset] at h
    cases hr : p.rst
    · cases hv : p.cmdValid
      · rw [hr, hv] at h
        cases h
        exact .inr (.inr (.inr (.inl ⟨p, rest, he, hr, hv, rfl⟩)))
      · cases hs : s.hasReset
        · rw [hr, hv, hs] at h
          cases h
        · rw [hr, hv, hs] at h
          exact .inr (.inr (.inr (.inr ⟨p, rest, he, hr, hv, rfl, h⟩)))
    · rw [hr] at h
      cases h
      exact .inr (.inr (.inl ⟨p, rest, he, hr, rfl⟩))
  · cases h
    exact .inr (.inl ⟨_, ‹_›, rfl⟩)

/-- A step whose next event is an edge is that edge, at the state with its pins. -/
theorem step_edge {s : State} {p : Pins} {rest : List Event} (he : s.events = .edge p :: rest) :
    step s = clockEdge (s.present p rest) := by
  simp [step, takeEvent, he]

/-- The step of a reset block whose next event executes a word. -/
theorem step_of_presents {s : State} {w : Word} {raw : PerPort Byte} {rest : List Event} (h : s.Presents w raw rest) :
    step s = runWord w (s.present (commandPins w raw) rest) := by
  rw [step_edge h.2]
  simp [clockEdge, commandPins, h.1]

theorem Event.commandWord_edge {p : Pins} (hr : p.rst = false) (hv : p.cmdValid = true) :
    (Event.edge p).commandWord = some p.cmd := by
  simp [Event.commandWord, hr, hv]

/-! ## Schedules -/

theorem run_zero (s : State) : run 0 s = .next s := rfl

theorem run_succ {k : Nat} {s t : State} (h : step s = .next t) : run (k + 1) s = run k t := by
  simp only [run, h]

theorem run_refused {k : Nat} {s : State} {r : Refusal} (h : step s = .refused r) : run (k + 1) s = .refused r := by
  simp only [run, h]

@[simp] theorem State.withSchedule_events (s : State) (es : List Event) : (s.withSchedule es).events = es := rfl
@[simp] theorem State.withSchedule_hasReset (s : State) (es : List Event) :
    (s.withSchedule es).hasReset = s.hasReset := rfl
@[simp] theorem State.withSchedule_params (s : State) (es : List Event) :
    (s.withSchedule es).params = s.params := rfl
@[simp] theorem State.withSchedule_hist (s : State) (es : List Event) : (s.withSchedule es).hist = s.hist := rfl
@[simp] theorem State.withSchedule_deb (s : State) (es : List Event) : (s.withSchedule es).deb = s.deb := rfl

/-- A property of states that every step keeps holds after any number of steps. -/
theorem run_induction {P : State → Prop} (hstep : ∀ s t, P s → step s = .next t → P t) :
    ∀ (k : Nat) (s t : State), P s → run k s = .next t → P t
  | 0, s, t, hs, h => by
    rw [run_zero] at h
    cases h
    exact hs
  | k + 1, s, t, hs, h => by
    cases he : step s with
    | next u =>
      rw [run_succ he] at h
      exact run_induction hstep k u t (hstep s u hs he) h
    | fault r => cases r
    | refused r =>
      rw [run_refused he] at h
      cases h

end Sys2Proof.Machine
end

