-- ==== Sys2Proof/Tests/Slice0.lean ====
section
/-! SUPPORT. Tests of the model. Expected results come from spec/95_test_vectors.md and the encodings of
spec/30_encoding.md; then, for each statement with hypotheses, a concrete input that meets them. -/

namespace Sys2Proof.Tests

open Sys2Proof Sys2Proof.Machine

/-! ## Well-formedness: one ill-formed term for each check -/

theorem test_wellFormed_refuses_request_above : ¬ (Instr.quant 32768).WellFormed := by decide
theorem test_wellFormed_refuses_request_below : ¬ (Instr.quant (-32769)).WellFormed := by decide
theorem test_wellFormed_accepts_bounds :
    (Instr.quant 32767).WellFormed ∧ (Instr.quant (-32768)).WellFormed := by decide

/-! ## Decoding: words written out bit by bit from R50 and R51 -/

theorem test_decode_nop : decode 0b0000_000000000000_000000000000000_0#32 = .ok .nop := by decide
theorem test_decode_tick : decode 0b0001_000000000000_000000000000000_0#32 = .ok .tick := by decide
theorem test_decode_rddeb0 : decode 0b0010_000000000000_000000000000000_0#32 = .ok (.rddeb .port0) := by decide
theorem test_decode_rddeb1 : decode 0b0010_000000000000_000000000000000_1#32 = .ok (.rddeb .port1) := by decide
theorem test_decode_quant_min : decode 0b0011_000000000000_1000000000000000#32 = .ok (.quant (-32768)) := by decide
theorem test_decode_quant_max : decode 0b0011_000000000000_0111111111111111#32 = .ok (.quant 32767) := by decide
theorem test_decode_qnull : decode 0b0100_000000000000_000000000000000_0#32 = .ok .qnull := by decide
theorem test_decode_rdq : decode 0b0101_000000000000_000000000000000_0#32 = .ok .rdq := by decide

/-- The illegal words of spec/95_test_vectors.md 2.1. -/
theorem test_decode_illegal :
    [0x10000001#32, 0x20000002#32, 0x28000000#32, 0x30010000#32, 0x40000001#32, 0x5000FFFF#32].all
      (fun w => decide (decode w = .error .sbzNonzero)) = true ∧
    [0x60000000#32, 0x9ABCDEF0#32, 0xF0000000#32, 0xFFFFFFFF#32].all
      (fun w => decide (decode w = .error .reservedOpcode)) = true := by decide

theorem test_encode_quant : encode (.quant (-5)) = 0x3000FFFB#32 := by decide
theorem test_encode_rddeb : encode (.rddeb .port1) = 0x20000001#32 := by decide
theorem test_decodeTableWord : decodeTableWord 32 0x30000113 = some (.quant 275) := by decide

/-! ## The assembler syntax (R59) -/

theorem test_assemble_operands :
    assembleLine "  RdDeb 0 ; read" = some (.word 0x20000000#32) ∧ assembleLine "QUANT 275" = some (.word 0x30000113#32) ∧
    assembleLine "QUANT 0x8000" = some (.word 0x30008000#32) ∧ assembleLine ".word 0xFFFFFFFF" = some (.word 0xFFFFFFFF#32) := by
  decide

theorem test_assemble_refuses :
    assembleLine "QUANT" = none ∧ assembleLine "TICK 1" = none ∧ assembleLine "QUANT -32769" = none ∧
    assembleLine "QUANT 0x123" = none ∧ assembleLine "HALT" = none := by
  decide

/-! ## The instructions, under the example parameter set EX of spec/95_test_vectors.md -/

/-- The parameter set EX, which is not the hardware's. -/
def exParams : Params :=
  { maxTxPowerMw := 5000
    driveTable := #v[0#8, 8#8, 16#8, 24#8, 32#8, 40#8, 48#8, 56#8, 64#8, 72#8, 80#8, 88#8, 96#8, 104#8, 112#8, 120#8]
    maxDrive := 100#8 }

/-- The reset state under EX. -/
def exState : State := State.initial exParams

/-- The next state, if there is one. -/
def after (o : Host.Outcome State Fault Refusal) : Option State :=
  match o with
  | .next s => some s
  | .fault _ => none
  | .refused _ => none

/-- `exState` with this history and vector of port 0, and this level on its pins. -/
def debState (h : History) (d raw : Byte) : State :=
  { exState with
    hist := ⟨h, exState.hist.port1⟩
    deb := ⟨d, exState.deb.port1⟩
    pins := { exState.pins with raw := ⟨raw, 0x00#8⟩ } }

/-- `exState` with this result. -/
def resState (b : BitVec 4) (m : BitVec 16) (d : BitVec 8) (st : BitVec 2) : State :=
  (exState.setResult b m d).setStatus st

/-- Example of R110: a NOP clears a response. -/
theorem test_nop : (after (exec .nop (exState.respond 0xF0#32))).map (·.rsp) = some 0x00000000#32 := by decide

/-- Row 3 of 2.3. -/
theorem test_tick_third_sample :
    (after (exec .tick (debState ⟨0x0F#8, 0x0F#8, 0x00#8⟩ 0x00#8 0x0F#8))).map
      (fun t => (t.hist.port0, t.deb.port0, t.rsp)) = some (⟨0x0F#8, 0x0F#8, 0x0F#8⟩, 0x0F#8, 0x00000000#32) := by
  decide

/-- Row 4 of 2.3: one disagreeing sample changes nothing. -/
theorem test_tick_disagreeing_sample :
    (after (exec .tick (debState ⟨0x0F#8, 0x0F#8, 0x0F#8⟩ 0x0F#8 0x00#8))).map
      (fun t => (t.hist.port0, t.deb.port0)) = some (⟨0x00#8, 0x0F#8, 0x0F#8⟩, 0x0F#8) := by
  decide

/-- Row 7 of 2.2, where bits rise, fall and hold at once. -/
theorem test_filt_mixed : filt 0xAA#8 0x0F#8 0x33#8 0x55#8 = 0x2B#8 := by decide

/-- 2.3: RDDEB of `DEB = (0x0F, 0xF0)`. -/
theorem test_rddeb :
    [Port.port0, Port.port1].map
      (fun p => (after (exec (.rddeb p) (exState.setDebouncer exState.hist ⟨0x0F#8, 0xF0#8⟩))).map (·.rsp)) =
      [some 0x0000000F#32, some 0x000000F0#32] := by
  decide

/-- 2.4: a clamped table entry, an exact bound, and requests above the maximum and below zero. -/
theorem test_quant_responses :
    [(275, 0x1020012C#32), (2750, 0x34640BB8#32), (4999, 0x3C641388#32), (5001, 0x3D641388#32), (-32768, 0x00000000#32)].all
      (fun (r, w) => decide ((after (exec (.quant r) exState)).map (·.rsp) = some w)) = true := by
  decide

/-- 90_conflicts.md C3: with `MAX_TX_POWER_MW = 700`, `QUANT 701` gives 800 mW, above the maximum. -/
theorem test_quant_unsnapped_maximum :
    (after (exec (.quant 701) (State.initial { exParams with maxTxPowerMw := 700 }))).map
      (fun t => (t.qBkt, t.qMw, t.qStat)) = some (8#4, 800#16, 0b01#2) := by
  decide

/-- Row 2 of 2.5. -/
theorem test_qnull :
    (after (exec .qnull (resState 15#4 5000#16 100#8 0b01#2))).map (fun t => (t.qBkt, t.qMw, t.qDrv, t.qStat, t.rsp)) =
      some (15#4, 5000#16, 100#8, 0b10#2, 0x3E641388#32) := by
  decide

/-- Row 5 of 2.5: RDQ at reset, `DRIVE_TABLE[0] = 7`. -/
theorem test_rdq_at_reset :
    (after (exec .rdq (State.initial { exParams with driveTable := exParams.driveTable.set 0 7#8 }))).map (·.rsp) =
      some 0x00070000#32 := by
  decide

/-- R90: both sides of every bound. -/
theorem test_bucket_bounds :
    (bounds.map fun b => (bucket (b - 1)).toNat) = List.range 15 ∧
    (bounds.map fun b => (bucket b).toNat) = (List.range 15).map (· + 1) := by
  decide

/-! ## The step -/

/-- An edge with word `w` on `cmd`. -/
def cmdEdge (w : Word) : Event := .edge (commandPins w ⟨0xFF#8, 0x3C#8⟩)

/-- P4: `0x10000001` is illegal and does not sample. -/
theorem test_step_illegal_word :
    (after (step (exState.withSchedule [cmdEdge 0x10000001#32]))).map (fun t => (t.rsp, t.hist)) =
      some (0x80000000#32, exState.hist) := by
  decide

/-- Every row of the opcode table runs as the first command after reset. -/
theorem test_step_first_command :
    [0x00000000, 0x10000000, 0x20000001, 0x30000113, 0x40000000, 0x50000000].all
      (fun w => (after (step (State.reset.withFetchWord 32 w))).isSome) = true := by
  decide

/-- The first lines of P1: TICK, RDDEB 0, TICK, RDDEB 0, TICK, RDDEB 1, here with raw1 = 0x3C. -/
theorem test_run_third_tick_reaches_output :
    (after (runSchedule exState
      [cmdEdge 0x10000000#32, cmdEdge 0x20000000#32, cmdEdge 0x10000000#32, cmdEdge 0x10000000#32,
       cmdEdge 0x20000001#32])).map (fun t => (t.deb, t.rsp)) = some (⟨0xFF#8, 0x3C#8⟩, 0x0000003C#32) := by
  decide

/-! ## Witnesses: each statement with hypotheses has inputs that meet them together -/

theorem witness_DecodeOfEncode : (Instr.quant (-32768)).WellFormed ∧ (Instr.rddeb .port1).WellFormed := by decide
theorem witness_EncodeOfDecode : decode 0x3000FFFF#32 = .ok (.quant (-1)) := by decide

/-- One word for each format of R53, the lowest or the highest SBZ bit set. -/
theorem witness_NonzeroSbzWordIsIllegal :
    (opcodeField 0x08000000#32 = 0x0#4 ∧ (0x08000000#32).extractLsb' 0 28 ≠ 0#28) ∧
    (opcodeField 0x10000001#32 = 0x1#4 ∧ (0x10000001#32).extractLsb' 0 28 ≠ 0#28) ∧
    (opcodeField 0x40000001#32 = 0x4#4 ∧ (0x40000001#32).extractLsb' 0 28 ≠ 0#28) ∧
    (opcodeField 0x58000000#32 = 0x5#4 ∧ (0x58000000#32).extractLsb' 0 28 ≠ 0#28) ∧
    (opcodeField 0x20000002#32 = 0x2#4 ∧ (0x20000002#32).extractLsb' 1 27 ≠ 0#27) ∧
    (opcodeField 0x30010000#32 = 0x3#4 ∧ (0x30010000#32).extractLsb' 16 12 ≠ 0#12) := by
  decide

/-- A state that presents a word, for the statements that ask for one. -/
theorem witness_Presents (w : Word) : (exState.withSchedule [cmdEdge w]).Presents w ⟨0xFF#8, 0x3C#8⟩ [] := ⟨rfl, rfl⟩

theorem witness_ReservedOpcodeWordIsIllegal :
    6 ≤ (opcodeField 0x60000000#32).toNat ∧ 6 ≤ (opcodeField 0xFFFFFFFF#32).toNat := by
  decide

theorem witness_IllegalWordSetsIllOnly :
    (exState.withSchedule [cmdEdge 0x60000000#32]).Presents 0x60000000#32 ⟨0xFF#8, 0x3C#8⟩ [] ∧
    NoRowMatches 0x60000000#32 := by
  refine ⟨⟨rfl, rfl⟩, ?_⟩
  unfold NoRowMatches
  decide

theorem witness_QuantWritesResultAndStatus :
    -32768 ≤ (-32768 : Int) ∧ (-32768 : Int) ≤ 32767 ∧
    15#4 = bucket (min (max 5001 0) (exState.params.maxTxPowerMw.val : Int)) ∧
    0b01#2 = (if (5001 : Int) > (exState.params.maxTxPowerMw.val : Int) then 0b01#2 else 0b00#2) := by
  decide

/-- One word for each form of response. -/
theorem witness_ResponseHasItsForm :
    (after (runWord 0x00000000#32 exState)).isSome ∧ (after (runWord 0x10000000#32 exState)).isSome ∧
    (after (runWord 0x20000001#32 exState)).isSome ∧ (after (runWord 0x30001389#32 exState)).isSome ∧
    (after (runWord 0x40000000#32 exState)).isSome ∧ (after (runWord 0x50000000#32 exState)).isSome ∧
    (after (runWord 0x60000000#32 exState)).isSome := by
  decide

/-- A request at each side of the maximum of EX, for the clauses of R91 and R94. -/
theorem witness_OverRangeRequestIsReportedAndQuantized :
    (5001 : Int) > (exState.params.maxTxPowerMw.val : Int) ∧ ¬ (5000 : Int) > (exState.params.maxTxPowerMw.val : Int) := by
  decide

/-- One event of each kind that a statement about a step speaks of, each answering a next state. -/
theorem witness_events :
    [Event.edge { Pins.idle with rst := true }, Event.edge Pins.idle, cmdEdge 0x00000000#32, cmdEdge 0x10000000#32,
      cmdEdge 0x30001389#32, cmdEdge 0x40000000#32, cmdEdge 0x50000000#32, cmdEdge 0x60000000#32].all
      (fun e => decide (e ≠ .powerCycle) && (after (step (exState.withSchedule [e]))).isSome) = true := by
  decide

/-- The first two clauses of ConditionsHaveTheirOnlyCause: the status changes to each code. -/
theorem witness_ConditionsHaveTheirOnlyCause :
    exState.qStat = 0b00#2 ∧
    (after (step (exState.withSchedule [cmdEdge 0x30001389#32]))).map (·.qStat) = some 0b01#2 ∧
    (after (step (exState.withSchedule [cmdEdge 0x40000000#32]))).map (·.qStat) = some 0b10#2 := by
  decide

/-- The event executes the command that the clauses about QUANT, QNULL, RDQ and TICK name. -/
theorem witness_Executes :
    (cmdEdge 0x30001389#32).Executes (.quant 5001) ∧ (cmdEdge 0x40000000#32).Executes .qnull ∧
    (cmdEdge 0x50000000#32).Executes .rdq ∧ (cmdEdge 0x10000000#32).Executes .tick ∧
    ¬ (Event.edge Pins.idle).Executes .tick ∧ ¬ (Event.edge Pins.idle).IsReset ∧
    (Event.edge { Pins.idle with rst := true }).IsReset := by
  refine ⟨⟨_, rfl, by decide⟩, ⟨_, rfl, by decide⟩, ⟨_, rfl, by decide⟩, ⟨_, rfl, by decide⟩, ?_, ?_, rfl⟩
  · rintro ⟨w, hw, _⟩
    cases hw
  · intro h
    cases h

/-- Outputs do change, at a reset, a command and a TICK. -/
theorem witness_OutputsHoldBetweenCommands :
    (after (step ((debState ⟨0xFF#8, 0xFF#8, 0x00#8⟩ 0x00#8 0x00#8).withSchedule [cmdEdge 0x10000000#32]))).map State.outDeb0 =
      some 0xFF#8 ∧
    (after (step (exState.withSchedule [cmdEdge 0x60000000#32]))).map State.outRsp = some 0x80000000#32 := by
  decide

theorem witness_QuantizerIsMonotone : (-1 : Int) ≤ 5001 := by decide

/-- The least and the greatest bucket. -/
theorem witness_SnappedRequestIsItsOwnResult :
    (snap 0#4).toNat ≤ exState.params.maxTxPowerMw.val ∧ (snap 15#4).toNat ≤ exState.params.maxTxPowerMw.val := by
  decide

theorem witness_MaximumLimitsTheBuckets :
    exParams.maxTxPowerMw.val = 5000 ∧
    ((4 : Fin 32768).val : Int) < bounds.getD 0 0 ∧ ((4499 : Fin 32768).val : Int) < bounds.getD 14 0 := by
  decide

/-- The first and the last index of R92, and the case of no bound above; `test_bucket_bounds` is at every bound. -/
theorem witness_BucketIsLeastBoundAbove :
    bucket 4 = BitVec.ofNat 4 0 ∧ bucket 4499 = BitVec.ofNat 4 14 ∧ bucket 4500 = 15#4 := by
  decide

theorem witness_QuantIgnoresEarlierCommands :
    exState.params = (resState 15#4 5000#16 100#8 0b10#2).params ∧ exState ≠ resState 15#4 5000#16 100#8 0b10#2 := by
  decide

/-- A state that no reset has reached, at a reset edge and at a command. -/
theorem witness_before_reset :
    let s := { exState with hasReset := false, events := [cmdEdge 0x00000000#32] }
    s.hasReset = false ∧ (commandPins 0x00000000#32 ⟨0xFF#8, 0x3C#8⟩).rst = false ∧
      (commandPins 0x00000000#32 ⟨0xFF#8, 0x3C#8⟩).cmdValid = true ∧
      (match step s with | .refused r => decide (r = .commandBeforeReset) | _ => false) = true := by
  decide

/-- Reset, idle and power-cycle events stand at the head of a schedule. -/
theorem witness_ResetEdgeSetsEveryField :
    (exState.withSchedule [.edge { commandPins 0x10000000#32 ⟨0xFF#8, 0x3C#8⟩ with rst := true }]).events =
      .edge { commandPins 0x10000000#32 ⟨0xFF#8, 0x3C#8⟩ with rst := true } :: [] := rfl
theorem witness_IdleEdgeChangesNoField :
    (exState.withSchedule [.edge Pins.idle]).events = .edge Pins.idle :: [] ∧ Pins.idle.rst = false ∧
      Pins.idle.cmdValid = false := ⟨rfl, rfl, rfl⟩
theorem witness_PowerCycleLosesTheState :
    let s := exState.withSchedule [.powerCycle]
    let u := (resState 15#4 5000#16 100#8 0b10#2).withSchedule [.powerCycle]
    s.events = .powerCycle :: [] ∧ u.events = .powerCycle :: [] ∧ s.params = u.params ∧ s.pins = u.pins ∧
      s.taken = u.taken ∧ s ≠ u := by
  decide

theorem witness_StepRunsDecodedCommand :
    (exState.withSchedule [cmdEdge 0x50000000#32]).Presents 0x50000000#32 ⟨0xFF#8, 0x3C#8⟩ [] ∧
    decode 0x50000000#32 = .ok .rdq := ⟨⟨rfl, rfl⟩, by decide⟩
theorem witness_PresentedWordRunsNext : State.reset.hasReset = true ∧ decodeTableWord 32 0x10000000 = some .tick :=
  ⟨rfl, by decide⟩

theorem witness_RepeatedCommandIsIdempotent : Instr.quant 275 ≠ .tick ∧ Instr.qnull ≠ .tick := by decide
theorem witness_ReadRightAfterWriteSeesIt : exState.hasReset = true ∧ RequestInRange 32767 := by decide

/-- A safe state that is not the reset state, whose step answers a next state. -/
theorem witness_StepKeepsInvariant :
    ∃ s, Safe s ∧ s.qBkt = 15#4 ∧ (after (step s)).isSome := by
  refine ⟨(resState 15#4 5000#16 100#8 0b01#2).withSchedule [cmdEdge 0x40000000#32], fun _ => ?_, rfl, by decide⟩
  refine ⟨by decide, by decide, by decide, ?_⟩
  intro p i _ _ _
  cases p <;> rfl

theorem witness_ReachableStatesMeetInvariant :
    (after (run 2 ((State.initial exParams).withSchedule [cmdEdge 0x10000000#32, cmdEdge 0x30001389#32]))).isSome := by
  decide

/-- Two states that agree on bit 0 of port 0 and differ elsewhere. -/
theorem witness_BitsAreFilteredIndependently :
    let s := debState ⟨0x01#8, 0x01#8, 0x00#8⟩ 0x00#8 0x01#8
    let u := debState ⟨0xF1#8, 0x0F#8, 0xFF#8⟩ 0xF0#8 0x81#8
    (s.pins.raw.get .port0).getLsbD 0 = (u.pins.raw.get .port0).getLsbD 0 ∧
    (s.hist.get .port0).newest.getLsbD 0 = (u.hist.get .port0).newest.getLsbD 0 ∧
    (s.hist.get .port0).middle.getLsbD 0 = (u.hist.get .port0).middle.getLsbD 0 ∧
    (s.deb.get .port0).getLsbD 0 = (u.deb.get .port0).getLsbD 0 ∧ s ≠ u := by
  decide

theorem witness_DisagreeingSamplesHoldTheBit :
    let s := debState ⟨0x01#8, 0x00#8, 0x00#8⟩ 0x00#8 0x01#8
    ¬ ((s.pins.raw.get .port0).getLsbD 0 = (s.hist.get .port0).newest.getLsbD 0 ∧
       (s.hist.get .port0).newest.getLsbD 0 = (s.hist.get .port0).middle.getLsbD 0) := by
  decide

/-- A schedule of three TICKs with other commands and an idle edge between them. -/
def busySchedule : List Event :=
  [cmdEdge 0x10000000#32, cmdEdge 0x30000113#32, cmdEdge 0x10000000#32, .edge Pins.idle, cmdEdge 0x60000000#32,
   cmdEdge 0x10000000#32]

theorem witness_schedules :
    exState.hasReset = true ∧ (∀ e ∈ busySchedule, e.KeepsState) ∧
    tickSamples .port1 busySchedule = [] ++ [0x3C#8, 0x3C#8, 0x3C#8] ∧ (0x3C#8).getLsbD 2 = true := by
  refine ⟨rfl, ?_, by decide, by decide⟩
  intro e he
  simp only [busySchedule, cmdEdge, List.mem_cons, List.not_mem_nil, or_false] at he
  rcases he with rfl | rfl | rfl | rfl | rfl | rfl <;> exact rfl

/-- A glitch of two TICKs, which returns: no three samples in a row are one. -/
theorem witness_GlitchesNeverReachTheOutput :
    (exState.deb.get .port0).getLsbD 0 = false ∧
    NoThreeEqual true
      ((exState.hist.get .port0).middle.getLsbD 0 :: (exState.hist.get .port0).newest.getLsbD 0 ::
        (tickSamples .port0 [cmdEdge 0x10000000#32, cmdEdge 0x10000000#32]).map (fun x => x.getLsbD 0)) := by
  refine ⟨by decide, ?_⟩
  rw [show (_ :: _ :: _ : List Bool) = [false, false, true, true] by decide]
  simp [NoThreeEqual]

/-- Two samples, three, and a fourth after them, with one bit of port 1 at 1 throughout and one at 0. -/
theorem witness_OutputsAfterResetNeedThreeSamples :
    (tickSamples .port0 [cmdEdge 0x10000000#32, cmdEdge 0x10000000#32]).length ≤ 2 ∧
    tickSamples .port0 busySchedule = [0xFF#8, 0xFF#8, 0xFF#8] ∧
    tickSamples .port1 (busySchedule ++ [cmdEdge 0x10000000#32]) = [0x3C#8] ++ [0x3C#8, 0x3C#8, 0x3C#8] ∧
    (0x3C#8).getLsbD 2 = true ∧
    ∀ x ∈ tickSamples .port1 (busySchedule ++ [cmdEdge 0x10000000#32]), x.getLsbD 0 = false := by
  decide

theorem witness_IllegalWordIsNamedByItsOpcode : NoRowMatches 0x60000000#32 ∧ NoRowMatches 0x58000000#32 := by
  unfold NoRowMatches
  decide

end Sys2Proof.Tests
end

/-! # The state's fields: which step writes them (spec/10_state.md) -/

namespace Sys2Proof.Machine

/-! ## What each command writes -/

/-- QUANT's writes (R95): the result and the status of the request, and a response that shows them. -/
theorem exec_quant_writes {req : Int} {s t : State} (h : exec (.quant req) s = .next t) :
    t.qBkt = requestBucket s.params req ∧ t.qMw = snap (requestBucket s.params req) ∧
      t.qDrv = drive s.params (requestBucket s.params req) ∧ t.qStat = quantStatus s.params req ∧
      t.rsp = rspQ t := by
  cases h
  exact ⟨rfl, rfl, rfl, rfl, rfl⟩

/-- QNULL's writes (R96). -/
theorem exec_qnull_writes {s t : State} (h : exec .qnull s = .next t) :
    t.qStat = statLogicError ∧ t.rsp = rspQ t := by
  cases h
  exact ⟨rfl, rfl⟩

/-- RDQ's write (R97). -/
theorem exec_rdq_writes {s t : State} (h : exec .rdq s = .next t) : t.rsp = rspQ t := by
  cases h
  rfl

/-- TICK's write to the history of each port (R71). -/
theorem exec_tick_hist {s t : State} (h : exec .tick s = .next t) (p : Port) : t.hist.get p = tickHist s p := by
  cases h
  exact PerPort.get_mk (tickHist s) p

/-- A command other than QUANT leaves the quantizer's result alone (R27). -/
theorem exec_result_frame {i : Instr} {s t : State} (h : exec i s = .next t) (hi : ∀ req, i ≠ .quant req) :
    t.qMw = s.qMw ∧ t.qDrv = s.qDrv ∧ t.qBkt = s.qBkt := by
  cases i
  case quant req => exact absurd rfl (hi req)
  all_goals
    cases h
    exact ⟨rfl, rfl, rfl⟩

/-- A command other than QUANT and QNULL leaves the status alone (R28). -/
theorem exec_status_frame {i : Instr} {s t : State} (h : exec i s = .next t) (hq : ∀ req, i ≠ .quant req)
    (hn : i ≠ .qnull) : t.qStat = s.qStat := by
  cases i
  case quant req => exact absurd rfl (hq req)
  case qnull => exact absurd rfl hn
  all_goals
    cases h
    rfl

/-- QUANT never writes the reserved status code (R28). -/
theorem quantStatus_ne_reserved (p : Params) (req : Int) : quantStatus p req ≠ 0b11#2 := by
  unfold quantStatus
  split <;> decide

/-- The status of a request within the maximum (R94). -/
theorem quantStatus_of_not_over {p : Params} {req : Int} (h : ¬ Over p req) : quantStatus p req = statNoError :=
  if_neg h

/-- No command makes the status the reserved code (R28). -/
theorem exec_status_legal {i : Instr} {s t : State} (h : exec i s = .next t) (hs : s.qStat ≠ 0b11#2) :
    t.qStat ≠ 0b11#2 := by
  cases i
  case quant req =>
    obtain ⟨-, -, -, hstat, -⟩ := exec_quant_writes h
    exact hstat ▸ quantStatus_ne_reserved s.params req
  case qnull =>
    rw [(exec_qnull_writes h).1]
    decide
  all_goals
    rw [exec_status_frame h (by simp) (by simp)]
    exact hs

/-- A request of 0 falls in bucket 0 under every parameter set (R91, R92). -/
theorem requestBucket_zero (p : Params) : requestBucket p 0 = 0#4 := by
  have hc : clampRequest p 0 = 0 := by simp [clampRequest]
  rw [requestBucket, hc]
  decide

/-! ## The history is read by TICK alone -/

/-- Replacing the history before a command changes at most the history and the debounced vectors after it, and
only the history unless the command is TICK (R25). -/
theorem exec_with_hist (i : Instr) (s : State) (h : PerPort History) :
    ∃ t h' d', exec i s = .next t ∧ exec i { s with hist := h } = .next (t.setDebouncer h' d') ∧
      (i ≠ .tick → h' = h ∧ d' = t.deb) := by
  cases i
  case tick => exact ⟨_, _, _, rfl, rfl, fun hi => absurd rfl hi⟩
  all_goals exact ⟨_, h, s.deb, rfl, rfl, fun _ => ⟨rfl, rfl⟩⟩

/-- The same of every word, illegal ones included. -/
theorem runWord_with_hist (w : Word) (s : State) (h : PerPort History) :
    ∃ t h' d', runWord w s = .next t ∧ runWord w { s with hist := h } = .next (t.setDebouncer h' d') ∧
      (decode w ≠ .ok .tick → h' = h ∧ d' = t.deb) := by
  unfold runWord
  cases decode w with
  | ok i => simpa using exec_with_hist i s h
  | error e => exact ⟨_, h, s.deb, rfl, rfl, fun _ => ⟨rfl, rfl⟩⟩

/-! ## What a step does, by the event it takes -/

/-- An event that executes a word is an edge with `rst = 0`, `cmd_valid = 1` and the word on `cmd` (R23, R141). -/
theorem Event.commandWord_eq_some {e : Event} {w : Word} (h : e.commandWord = some w) :
    ∃ p, e = .edge p ∧ p.rst = false ∧ p.cmdValid = true ∧ p.cmd = w := by
  cases e with
  | powerCycle => cases h
  | edge p =>
    obtain ⟨hr, hv, hc⟩ : p.rst = false ∧ p.cmdValid = true ∧ p.cmd = w := by
      simpa [Event.commandWord] using h
    exact ⟨p, rfl, hr, hv, hc⟩

/-- A step whose event executes a command is that command, at the state with the edge's pins. -/
theorem step_of_executes {s t : State} {e : Event} {rest : List Event} {i : Instr} (he : s.events = e :: rest)
    (h : step s = .next t) (hx : e.Executes i) : ∃ p, exec i (s.present p rest) = .next t := by
  obtain ⟨w, hw, hd⟩ := hx
  obtain ⟨p, rfl, hr, hv, rfl⟩ := Event.commandWord_eq_some hw
  rw [step_edge he] at h
  cases hs : s.hasReset
  · simp [clockEdge, hr, hv, hs] at h
  · exact ⟨p, by simpa [clockEdge, hr, hv, hs, runWord, hd] using h⟩

/-- A step whose event is a reset edge resets the block, whatever command the edge presents (R140, R141). -/
theorem step_of_reset_edge {s : State} {p : Pins} {rest : List Event} (he : s.events = .edge p :: rest)
    (hr : p.rst = true) : step s = .next (s.present p rest).applyReset := by
  simp [step_edge he, clockEdge, hr]

/-- The status after a reset edge (R33). -/
theorem step_status_of_isReset {s t : State} {e : Event} {rest : List Event} (he : s.events = e :: rest)
    (h : step s = .next t) (hr : e.IsReset) : t.qStat = statNoError := by
  cases e with
  | powerCycle => exact hr.elim
  | edge p =>
    rw [step_of_reset_edge he hr] at h
    cases h
    rfl

/-- A step that takes neither a reset nor a loss of power executes a command, or it writes at most the response:
the edge is idle or presents an illegal word. -/
theorem step_executes_or_responds {s t : State} {e : Event} {rest : List Event} (he : s.events = e :: rest)
    (h : step s = .next t) (hp : e ≠ .powerCycle) (hr : ¬ e.IsReset) :
    ∃ p, (∃ i, e.Executes i ∧ exec i (s.present p rest) = .next t) ∨ ∃ v, t = (s.present p rest).respond v := by
  rcases step_cases h with ⟨hn, -⟩ | ⟨_, hn, -⟩ | ⟨p, _, hn, hrst, -⟩ | ⟨p, _, hn, -, -, rfl⟩ |
    ⟨p, _, hn, hrst, hv, -, hw⟩ <;> rw [he] at hn <;> cases hn
  · exact absurd rfl hp
  · exact absurd hrst hr
  · exact ⟨p, .inr ⟨s.rsp, rfl⟩⟩
  · rcases runWord_cases hw with ⟨i, hd, hx⟩ | ⟨_, -, rfl⟩
    · exact ⟨p, .inl ⟨i, ⟨p.cmd, Event.commandWord_edge hrst hv, hd⟩, hx⟩⟩
    · exact ⟨p, .inr ⟨rspI, rfl⟩⟩

/-- A command that an event executes differs from each that it does not. -/
theorem Event.Executes.ne {e : Event} {i j : Instr} (hi : e.Executes i) (hj : ¬ e.Executes j) : i ≠ j := by
  rintro rfl
  exact hj hi

/-! ## The obligations -/

/-- Settles O36: a command other than TICK frames the history, and TICK alone reads it. -/
theorem historyIsHidden : Obligations.HistoryIsHidden := by
  refine ⟨?_, ?_, ?_⟩
  · intro s t e rest he h hp hr hx
    obtain ⟨p, ⟨i, hi, hexec⟩ | ⟨v, rfl⟩⟩ := step_executes_or_responds he h hp hr
    · exact (exec_debouncer hexec (hi.ne hx)).1
    · rfl
  · intro w s h
    obtain ⟨t, h', d', ht, hu, hdeb⟩ := runWord_with_hist w s h
    exact ⟨t, _, ht, hu, rfl, rfl, rfl, rfl, rfl, fun hw => (hdeb hw).2.symm⟩
  · intro s
    refine ⟨_, rfl, fun p => ?_⟩
    rw [exec_tick_hist rfl p]
    exact ⟨rfl, rfl, rfl⟩

/-- Settles O37, from what QUANT writes and the result's frame under every other command. -/
theorem resultWrittenOnlyByQuant : Obligations.ResultWrittenOnlyByQuant := by
  intro s t e rest he h hp hr
  refine ⟨?_, ?_, ?_⟩
  · intro req hx
    obtain ⟨p, hexec⟩ := step_of_executes he h hx
    obtain ⟨hb, hm, hd, -, -⟩ := exec_quant_writes hexec
    exact ⟨hb, hb ▸ hm, hb ▸ hd⟩
  · intro hx
    obtain ⟨p, ⟨i, hi, hexec⟩ | ⟨v, rfl⟩⟩ := step_executes_or_responds he h hp hr
    · simpa using exec_result_frame hexec fun req => hi.ne (hx req)
    · exact ⟨rfl, rfl, rfl⟩
  · rintro (⟨req, hx⟩ | hx | hx) <;> obtain ⟨p, hexec⟩ := step_of_executes he h hx
    · obtain ⟨-, -, -, -, hrsp⟩ := exec_quant_writes hexec
      exact hrsp
    · exact (exec_qnull_writes hexec).2
    · exact exec_rdq_writes hexec

/-- Settles O38, from what QUANT, QNULL and reset write and the status's frame under every other command. -/
theorem statusWrittenByQuantQnullAndReset : Obligations.StatusWrittenByQuantQnullAndReset := by
  intro s t e rest he h hp
  refine ⟨step_status_of_isReset he h, ?_, ?_, ?_, ?_⟩
  · intro req hx
    obtain ⟨p, hexec⟩ := step_of_executes he h hx
    obtain ⟨-, -, -, hstat, -⟩ := exec_quant_writes hexec
    exact hstat
  · intro hx
    obtain ⟨p, hexec⟩ := step_of_executes he h hx
    exact (exec_qnull_writes hexec).1
  · intro hr hq hn
    obtain ⟨p, ⟨i, hi, hexec⟩ | ⟨v, rfl⟩⟩ := step_executes_or_responds he h hp hr
    · simpa using exec_status_frame hexec (fun req => hi.ne (hq req)) (hi.ne hn)
    · rfl
  · intro hs
    by_cases hr : e.IsReset
    · rw [step_status_of_isReset he h hr]
      decide
    · obtain ⟨p, ⟨i, -, hexec⟩ | ⟨v, rfl⟩⟩ := step_executes_or_responds he h hp hr
      · exact exec_status_legal hexec hs
      · exact hs

/-- Settles O28: the reset edge applies the reset values, and a QUANT of 0 quantizes to bucket 0. -/
theorem resetEdgeSetsEveryField : Obligations.ResetEdgeSetsEveryField := by
  intro s p rest he hr
  refine ⟨step_of_reset_edge he hr, ?_⟩
  obtain ⟨t, ht⟩ : ∃ t, exec (.quant 0) s = .next t := ⟨_, rfl⟩
  obtain ⟨hb, hm, hd, hstat, -⟩ := exec_quant_writes ht
  rw [requestBucket_zero] at hb hm hd
  rw [quantStatus_of_not_over (by omega)] at hstat
  exact ⟨t, ht, hm, hb, hstat, hd⟩

end Sys2Proof.Machine

/-! # The encoding: the opcode table, illegal words and the response forms (spec/30_encoding.md) -/

namespace Sys2Proof

/-! ## The fields of a word that matches a row -/

/-- Where a row's mask is all ones, a word that matches the row has the bits of the row's pattern. -/
theorem Row.Matches.field_eq {r : Row} {w : Word} {k n : Nat} (h : r.Matches w)
    (hmask : r.mask.extractLsb' k n = BitVec.allOnes n) : w.extractLsb' k n = r.pattern.extractLsb' k n := by
  rw [← show w &&& r.mask = r.pattern from h, BitVec.extractLsb'_and, hmask, BitVec.and_allOnes]

/-- Every row fixes the opcode field. -/
theorem Row.Matches.opcodeField_eq {r : Row} {w : Word} (hr : r ∈ opcodeTable) (h : r.Matches w) :
    opcodeField w = opcodeField r.pattern := by
  have hmask : ∀ r ∈ opcodeTable, r.mask.extractLsb' 28 4 = BitVec.allOnes 4 := by decide
  exact h.field_eq (hmask r hr)

/-- No two rows share an opcode. -/
theorem row_eq_of_opcodeField_eq :
    ∀ r ∈ opcodeTable, ∀ r' ∈ opcodeTable, opcodeField r.pattern = opcodeField r'.pattern → r = r' := by
  decide

/-- At most one row matches any word (R51). -/
theorem Row.Matches.row_unique {r r' : Row} {w : Word} (hr : r ∈ opcodeTable) (hr' : r' ∈ opcodeTable)
    (h : r.Matches w) (h' : r'.Matches w) : r = r' :=
  row_eq_of_opcodeField_eq r hr r' hr' ((h.opcodeField_eq hr).symm.trans (h'.opcodeField_eq hr'))

/-! ## The decoder and the table -/

theorem rowOf_mem_opcodeTable (i : Instr) : rowOf i ∈ opcodeTable := by
  cases i <;> simp [rowOf, opcodeTable]

/-- What the decoder does with a word: it reads a command whose row matches, or no row matches and it rejects. -/
theorem decode_cases (w : Word) :
    (∃ i, decode w = .ok i ∧ (rowOf i).Matches w) ∨
    (Machine.NoRowMatches w ∧ decode w = .error (illegalName w)) := by
  unfold decode
  split_ifs with h0 h1 h2 h3 h4 h5
  · exact .inl ⟨_, rfl, h0⟩
  · exact .inl ⟨_, rfl, h1⟩
  · exact .inl ⟨_, rfl, h2⟩
  · exact .inl ⟨_, rfl, h3⟩
  · exact .inl ⟨_, rfl, h4⟩
  · exact .inl ⟨_, rfl, h5⟩
  · exact .inr ⟨by simp [Machine.NoRowMatches, opcodeTable, *], rfl⟩

/-- A word read as a command matches the command's row. -/
theorem matches_rowOf_of_decode {w : Word} {i : Instr} (h : decode w = .ok i) : (rowOf i).Matches w := by
  obtain ⟨j, hj, hm⟩ | ⟨-, he⟩ := decode_cases w
  · cases h.symm.trans hj
    exact hm
  · cases h.symm.trans he

/-- The words of a row are those that the decoder reads as a command of the row (R51). -/
theorem Row.matches_iff_decode {r : Row} (hr : r ∈ opcodeTable) (w : Word) :
    r.Matches w ↔ ∃ i, decode w = .ok i ∧ rowOf i = r := by
  constructor
  · intro h
    obtain ⟨i, hi, hm⟩ | ⟨hn, -⟩ := decode_cases w
    · exact ⟨i, hi, hm.row_unique (rowOf_mem_opcodeTable i) hr h⟩
    · exact absurd h (hn r hr)
  · rintro ⟨i, hi, rfl⟩
    exact matches_rowOf_of_decode hi

/-- The illegal words are those that no row matches (R51). -/
theorem noRowMatches_iff_decode (w : Word) : Machine.NoRowMatches w ↔ ∃ e, decode w = .error e := by
  obtain ⟨i, hi, hm⟩ | ⟨hn, he⟩ := decode_cases w
  · have hnot : ¬ Machine.NoRowMatches w := fun hn => hn _ (rowOf_mem_opcodeTable i) hm
    simp [hi, hnot]
  · exact ⟨fun _ => ⟨_, he⟩, fun _ => hn⟩

/-! ## Illegal words -/

namespace Machine

/-- A word with the opcode of a row that breaks bits the row fixes matches no row: R53 for each format's SBZ field. -/
theorem noRowMatches_of_field_ne {r : Row} {w : Word} {k n : Nat} (hr : r ∈ opcodeTable)
    (hmask : r.mask.extractLsb' k n = BitVec.allOnes n) (hop : opcodeField w = opcodeField r.pattern)
    (hne : w.extractLsb' k n ≠ r.pattern.extractLsb' k n) : NoRowMatches w := by
  intro r' hr' hm
  have heq : r' = r := row_eq_of_opcodeField_eq r' hr' r hr ((hm.opcodeField_eq hr').symm.trans hop)
  subst heq
  exact hne (hm.field_eq hmask)

/-- A word with a reserved opcode matches no row (R54). -/
theorem noRowMatches_of_reserved {w : Word} (h : 6 ≤ (opcodeField w).toNat) : NoRowMatches w := by
  have hdefined : ∀ r ∈ opcodeTable, (opcodeField r.pattern).toNat < 6 := by decide
  intro r hr hm
  have hlt := hdefined r hr
  rw [← hm.opcodeField_eq hr] at hlt
  omega

/-- An illegal word reports itself in the response and does nothing else (R111). -/
theorem runWord_of_error {w : Word} {e : IllegalWord} (h : decode w = .error e) (s : State) :
    runWord w s = .next s.reportIllegal := by
  simp only [runWord, h, execIllegal]

/-- A legal word does what its command does. -/
theorem runWord_of_ok {w : Word} {i : Instr} (h : decode w = .ok i) (s : State) : runWord w s = exec i s := by
  simp only [runWord, h]

/-- The step of a reset block that is presented a word that no row matches (R111, R123). -/
theorem step_of_noRowMatches {s : State} {w : Word} {raw : PerPort Byte} {rest : List Event}
    (hp : s.Presents w raw rest) (hn : NoRowMatches w) :
    step s = .next (s.present (commandPins w raw) rest).reportIllegal := by
  obtain ⟨e, he⟩ := (noRowMatches_iff_decode w).mp hn
  rw [step_of_presents hp, runWord_of_error he]

/-! ## The response forms -/

@[simp] theorem rspD_extract_vector (v : Byte) : (rspD v).extractLsb' 0 8 = v := by
  simp [rspD, BitVec.extractLsb'_setWidth_of_le]

@[simp] theorem rspD_extract_zero (v : Byte) : (rspD v).extractLsb' 8 24 = 0#24 := by
  ext j hj
  simp [rspD]

/-! The fields of form RQ are read by dropping the fields below them. -/

section
variable (s : State)

@[simp] theorem rspQ_extract_qMw : (rspQ s).extractLsb' 0 16 = s.qMw :=
  BitVec.extractLsb'_append_eq_right

@[simp] theorem rspQ_extract_qDrv : (rspQ s).extractLsb' 16 8 = s.qDrv :=
  (BitVec.extractLsb'_append_eq_of_le (by decide)).trans BitVec.extractLsb'_append_eq_right

@[simp] theorem rspQ_extract_qStat : (rspQ s).extractLsb' 24 2 = s.qStat :=
  calc (rspQ s).extractLsb' 24 2
    _ = (0b00#2 ++ s.qBkt ++ s.qStat ++ s.qDrv).extractLsb' 8 2 := BitVec.extractLsb'_append_eq_of_le (by decide)
    _ = (0b00#2 ++ s.qBkt ++ s.qStat).extractLsb' 0 2 := BitVec.extractLsb'_append_eq_of_le (by decide)
    _ = s.qStat := BitVec.extractLsb'_append_eq_right

/-- What stands above the status: `Q_BKT` and the zero bits. -/
theorem rspQ_extract_above_qStat {k n : Nat} (h : 26 ≤ k) :
    (rspQ s).extractLsb' k n = (0b00#2 ++ s.qBkt).extractLsb' (k - 26) n :=
  calc (rspQ s).extractLsb' k n
    _ = (0b00#2 ++ s.qBkt ++ s.qStat ++ s.qDrv).extractLsb' (k - 16) n := BitVec.extractLsb'_append_eq_of_le (by omega)
    _ = (0b00#2 ++ s.qBkt ++ s.qStat).extractLsb' (k - 16 - 8) n := BitVec.extractLsb'_append_eq_of_le (by omega)
    _ = (0b00#2 ++ s.qBkt).extractLsb' (k - 16 - 8 - 2) n := BitVec.extractLsb'_append_eq_of_le (by omega)
    _ = (0b00#2 ++ s.qBkt).extractLsb' (k - 26) n := by simp only [Nat.sub_sub]

@[simp] theorem rspQ_extract_qBkt : (rspQ s).extractLsb' 26 4 = s.qBkt :=
  (rspQ_extract_above_qStat s (by decide)).trans BitVec.extractLsb'_append_eq_right

@[simp] theorem rspQ_extract_zero : (rspQ s).extractLsb' 30 2 = 0b00#2 :=
  (rspQ_extract_above_qStat s (by decide)).trans BitVec.extractLsb'_append_eq_left

theorem rspQ_not_ill : (rspQ s).getLsbD 31 = false := by
  rw [rspQ_getLsbD]
  exact BitVec.getLsbD_of_ge s.qBkt 5 (by decide)

end

/-- TICK's response (R71). -/
theorem exec_tick_rsp {s t : State} (h : exec .tick s = .next t) : t.rsp = rspZ := by
  cases h
  rfl

/-- NOP's response (R110). -/
theorem exec_nop_rsp {s t : State} (h : exec .nop s = .next t) : t.rsp = rspZ := by
  cases h
  rfl

/-- RDDEB's response (R75). -/
theorem exec_rddeb_rsp {p : Port} {s t : State} (h : exec (.rddeb p) s = .next t) :
    t.rsp = rspD (t.deb.get p) := by
  cases h
  rfl

/-- No command's response has the `ILL` bit: it is of form RZ, RD or RQ (R57). -/
theorem exec_rsp_not_ill {i : Instr} {s t : State} (h : exec i s = .next t) : t.rsp.getLsbD 31 = false := by
  cases i with
  | nop => exact exec_nop_rsp h ▸ rfl
  | tick => exact exec_tick_rsp h ▸ rfl
  | rddeb p =>
    rw [exec_rddeb_rsp h, rspD, BitVec.getLsbD_setWidth, BitVec.getLsbD_of_ge _ 31 (by decide), Bool.and_false]
  | quant req =>
    obtain ⟨-, -, -, -, hrsp⟩ := exec_quant_writes h
    exact hrsp ▸ rspQ_not_ill t
  | qnull => exact (exec_qnull_writes h).2 ▸ rspQ_not_ill t
  | rdq => exact exec_rdq_writes h ▸ rspQ_not_ill t

/-! ## The obligations -/

/-- Settles O4: a row fixes the opcode field, so rows are disjoint, and the decoder tries each of them. -/
theorem wordIsCommandOfItsRow : Obligations.WordIsCommandOfItsRow :=
  ⟨rfl, fun w =>
    ⟨fun _ hr => Row.matches_iff_decode hr w,
     fun _ hr _ hr' h h' => h.row_unique hr hr' h',
     noRowMatches_iff_decode w⟩⟩

/-- Settles O5: a word of a row's opcode with an SBZ bit set breaks bits that the row fixes at zero. -/
theorem nonzeroSbzWordIsIllegal : Obligations.NonzeroSbzWordIsIllegal := by
  intro w h
  have hn : NoRowMatches w := by
    obtain ⟨hop | hop | hop | hop, hz⟩ | ⟨hop, hz⟩ | ⟨hop, hz⟩ := h
    · exact noRowMatches_of_field_ne (rowOf_mem_opcodeTable .nop) (by decide) hop hz
    · exact noRowMatches_of_field_ne (rowOf_mem_opcodeTable .tick) (by decide) hop hz
    · exact noRowMatches_of_field_ne (rowOf_mem_opcodeTable .qnull) (by decide) hop hz
    · exact noRowMatches_of_field_ne (rowOf_mem_opcodeTable .rdq) (by decide) hop hz
    · exact noRowMatches_of_field_ne (rowOf_mem_opcodeTable (.rddeb .port0)) (by decide) hop hz
    · exact noRowMatches_of_field_ne (rowOf_mem_opcodeTable (.quant 0)) (by decide) hop hz
  exact ⟨(noRowMatches_iff_decode w).mp hn, fun _ _ _ hp => step_of_noRowMatches hp hn⟩

/-- Settles O6: every row's opcode is below 6. -/
theorem reservedOpcodeWordIsIllegal : Obligations.ReservedOpcodeWordIsIllegal := by
  intro w h
  have hn := noRowMatches_of_reserved h
  exact ⟨(noRowMatches_iff_decode w).mp hn, fun _ _ _ hp => step_of_noRowMatches hp hn⟩

/-- Settles O15: each command's response is of its form, whose fields are read off, and only RI has bit 31. -/
theorem responseHasItsForm : Obligations.ResponseHasItsForm := by
  intro w s t h
  have hexec : ∀ i, decode w = .ok i → exec i s = .next t := fun i hd => runWord_of_ok hd s ▸ h
  have hill : (∃ e, decode w = .error e) → t.rsp = rspI := by
    rintro ⟨e, he⟩
    cases h.symm.trans (runWord_of_error he s)
    rfl
  refine ⟨?_, ?_, ?_, hill, ?_, ?_⟩
  · rintro (hd | hd)
    · exact exec_nop_rsp (hexec _ hd)
    · exact exec_tick_rsp (hexec _ hd)
  · intro p hd
    simp [exec_rddeb_rsp (hexec _ hd)]
  · intro hd
    have hrsp : t.rsp = rspQ t := by
      obtain ⟨req, hd⟩ | hd | hd := hd
      · obtain ⟨-, -, -, -, hrsp⟩ := exec_quant_writes (hexec _ hd)
        exact hrsp
      · exact (exec_qnull_writes (hexec _ hd)).2
      · exact exec_rdq_writes (hexec _ hd)
    simp [hrsp]
  · intro hbit
    cases hd : decode w with
    | ok i => cases (exec_rsp_not_ill (hexec i hd)).symm.trans hbit
    | error e => exact ⟨e, rfl⟩
  · intro he
    rw [hill he]
    rfl

end Machine

end Sys2Proof

/-! # The debouncer: TICK, RDDEB and the filter over schedules (spec/40_debouncer.md) -/

namespace Sys2Proof.Machine

/-! ## The filter, bit by bit -/

/-- R72's formula on one bit: the samples' value where all three agree, the old value elsewhere. -/
theorem filt_bit : ∀ d a b c : Bool,
    (a && b && c || d && (a || b || c)) = if a = b ∧ b = c then a else d := by
  decide

theorem filt_getLsbD (d a b c : Byte) (i : Nat) :
    (filt d a b c).getLsbD i =
      if a.getLsbD i = b.getLsbD i ∧ b.getLsbD i = c.getLsbD i then a.getLsbD i else d.getLsbD i := by
  simp only [filt, BitVec.getLsbD_or, BitVec.getLsbD_and, filt_bit]

/-- A debounced bit changes exactly when the three samples agree and differ from it (R72). -/
theorem filt_getLsbD_ne_iff (d a b c : Byte) (i : Nat) :
    (filt d a b c).getLsbD i ≠ d.getLsbD i ↔
      a.getLsbD i = b.getLsbD i ∧ b.getLsbD i = c.getLsbD i ∧ a.getLsbD i ≠ d.getLsbD i := by
  rw [filt_getLsbD]
  split_ifs with hagree
  · obtain ⟨hab, hbc⟩ := hagree
    exact ⟨fun hne => ⟨hab, hbc, hne⟩, fun ⟨_, _, hne⟩ => hne⟩
  · exact ⟨fun hne => absurd rfl hne, fun ⟨hab, hbc, _⟩ => absurd ⟨hab, hbc⟩ hagree⟩

/-! ## One TICK -/

/-- TICK's write to the debounced vector of each port (R71). -/
theorem exec_tick_deb {s t : State} (h : exec .tick s = .next t) (p : Port) : t.deb.get p = tickDeb s p := by
  cases h
  exact PerPort.get_mk (tickDeb s) p

/-- A debounced bit after a TICK, from that bit of its own port alone (R70, R72). -/
theorem tickDeb_getLsbD (s : State) (p : Port) (i : Nat) :
    (tickDeb s p).getLsbD i =
      if (s.pins.raw.get p).getLsbD i = (s.hist.get p).newest.getLsbD i ∧
          (s.hist.get p).newest.getLsbD i = (s.hist.get p).middle.getLsbD i
      then (s.pins.raw.get p).getLsbD i else (s.deb.get p).getLsbD i :=
  filt_getLsbD _ _ _ _ i

/-- TICK runs each port's filter over the raw sample of that port (R71). -/
theorem exec_tick_portFilter {s t : State} (h : exec .tick s = .next t) (p : Port) :
    t.portFilter p = (s.portFilter p).sample (s.pins.raw.get p) := by
  rw [State.portFilter, exec_tick_hist h, exec_tick_deb h]
  rfl

/-! ## One event -/

/-- Every word completes: the block has no trap (R120), and an illegal word does not stop it (R111). -/
theorem runWord_completes (w : Word) (s : State) : ∃ t, runWord w s = .next t := by
  cases hd : decode w with
  | ok i =>
    rw [runWord_of_ok hd]
    cases i <;> exact ⟨_, rfl⟩
  | error e => exact ⟨_, runWord_of_error hd s⟩

/-- A word samples both ports when it is a TICK, and leaves the debouncer alone otherwise. -/
theorem runWord_portFilter {w : Word} {s t : State} (h : runWord w s = .next t) (p : Port) :
    t.portFilter p =
      if decode w = .ok .tick then (s.portFilter p).sample (s.pins.raw.get p) else s.portFilter p := by
  rcases runWord_cases h with ⟨i, hd, hexec⟩ | ⟨e, hd, rfl⟩
  · by_cases hi : i = .tick
    · subst hi
      rw [if_pos hd, exec_tick_portFilter hexec]
    · obtain ⟨hhist, hdeb⟩ := exec_debouncer hexec hi
      rw [if_neg (by simpa [hd] using hi), State.portFilter, hhist, hdeb, State.portFilter]
  · rw [if_neg (by simp [hd])]
    rfl

/-- The step of an edge that presents nothing (R23). -/
theorem step_of_idle_edge {s : State} {pins : Pins} {rest : List Event} (he : s.events = .edge pins :: rest)
    (hr : pins.rst = false) (hv : pins.cmdValid = false) : step s = .next (s.present pins rest) := by
  simp [step_edge he, clockEdge, hr, hv]

/-- The step of a reset block whose edge presents a word. -/
theorem step_of_command_edge {s : State} {pins : Pins} {rest : List Event} (he : s.events = .edge pins :: rest)
    (hr : pins.rst = false) (hv : pins.cmdValid = true) (hs : s.hasReset = true) :
    step s = runWord pins.cmd (s.present pins rest) := by
  simp [step_edge he, clockEdge, hr, hv, hs]

/-- An idle edge takes no sample (R24). -/
theorem tickSamples_idle_edge {pins : Pins} (hr : pins.rst = false) (hv : pins.cmdValid = false) (p : Port) :
    tickSamples p [.edge pins] = [] := by
  simp [tickSamples, Event.tickSample, Event.commandWord, hr, hv]

/-- An edge that executes a word takes a sample when the word is a TICK's (R24). -/
theorem tickSamples_command_edge {pins : Pins} (hr : pins.rst = false) (hv : pins.cmdValid = true) (p : Port) :
    tickSamples p [.edge pins] = if decode pins.cmd = .ok .tick then [pins.raw.get p] else [] := by
  simp only [tickSamples, List.filterMap, Event.tickSample, Event.commandWord_edge hr hv]
  by_cases hd : decode pins.cmd = .ok .tick <;> simp [hd]

/-- The one-event case of R77: an event that neither resets a reset block nor cuts its power completes, and runs each
port's filter over the sample it takes, if it takes one. -/
theorem step_portFilter {s : State} {e : Event} {rest : List Event} (he : s.events = e :: rest)
    (hs : s.hasReset = true) (hk : e.KeepsState) :
    ∃ t, step s = .next t ∧ t.events = rest ∧ t.hasReset = true ∧
      ∀ p, t.portFilter p = (tickSamples p [e]).foldl PortFilter.sample (s.portFilter p) := by
  cases e with
  | powerCycle => exact hk.elim
  | edge pins =>
    cases hv : pins.cmdValid with
    | false =>
      refine ⟨_, step_of_idle_edge he hk hv, rfl, hs, fun p => ?_⟩
      rw [tickSamples_idle_edge hk hv]
      rfl
    | true =>
      obtain ⟨t, ht⟩ := runWord_completes pins.cmd (s.present pins rest)
      obtain ⟨-, hreset, -, hevents, -⟩ := runWord_frame ht
      refine ⟨t, (step_of_command_edge he hk hv hs).trans ht, hevents, hreset.trans hs, fun p => ?_⟩
      rw [runWord_portFilter ht, tickSamples_command_edge hk hv]
      split_ifs <;> rfl

/-! ## A schedule of events -/

/-- The samples of a schedule are those of its first event, then those of the rest. -/
theorem tickSamples_cons (p : Port) (e : Event) (es : List Event) :
    tickSamples p (e :: es) = tickSamples p [e] ++ tickSamples p es :=
  List.filterMap_append (l := [e])

/-- A run over its whole schedule is the filter run over the samples taken, port by port. -/
theorem run_portFilter (es : List Event) {s : State} (he : s.events = es) (hs : s.hasReset = true)
    (hk : ∀ e ∈ es, e.KeepsState) :
    ∃ t, run es.length s = .next t ∧
      ∀ p, t.portFilter p = (tickSamples p es).foldl PortFilter.sample (s.portFilter p) := by
  induction es generalizing s with
  | nil => exact ⟨s, run_zero s, fun _ => rfl⟩
  | cons e es ih =>
    obtain ⟨hke, hkes⟩ := List.forall_mem_cons.mp hk
    obtain ⟨u, hstep, hevents, hreset, hu⟩ := step_portFilter he hs hke
    obtain ⟨t, hrun, ht⟩ := ih hevents hreset hkes
    refine ⟨t, (run_succ hstep).trans hrun, fun p => ?_⟩
    rw [ht, hu, tickSamples_cons p e es, List.foldl_append]

/-! ## The obligations -/

/-- Settles O47, by induction on the schedule: each event runs the filter over the sample it takes. -/
theorem debouncerIsTheFilterOfItsSamples : Obligations.DebouncerIsTheFilterOfItsSamples :=
  fun s es hs hk => run_portFilter es (s.withSchedule_events es) hs hk

/-- Settles O16, from the filter's value on each bit. -/
theorem filterTakesAgreeingSamples : Obligations.FilterTakesAgreeingSamples :=
  fun d a b c => ⟨rfl, fun i => ⟨filt_getLsbD d a b c i, filt_getLsbD_ne_iff d a b c i⟩⟩

/-- Settles O45: the bit after a TICK is a function of the four bits on which the states agree. -/
theorem bitsAreFilteredIndependently : Obligations.BitsAreFilteredIndependently := by
  intro s u p i hraw hnewest hmiddle hdeb
  refine ⟨_, _, rfl, rfl, ?_, rfl, rfl⟩
  rw [exec_tick_deb rfl p, exec_tick_deb rfl p, tickDeb_getLsbD, tickDeb_getLsbD, hraw, hnewest, hmiddle, hdeb]

/-- Settles O9: the meaning of TICK, its operations written out as one record update. -/
theorem tickSamplesShiftsAndFilters : Obligations.TickSamplesShiftsAndFilters :=
  ⟨by decide, fun _ => rfl⟩

/-- Settles O10: the meaning of RDDEB at each port. -/
theorem rddebReturnsDebouncedVector : Obligations.RddebReturnsDebouncedVector :=
  ⟨by decide, by decide, fun _ => ⟨rfl, rfl⟩⟩

end Sys2Proof.Machine

/-! # The quantizer: QUANT, QNULL and RDQ, and their functions (spec/41_quantizer.md) -/

namespace Sys2Proof

/-! ## The word of QUANT -/

/-- The only request that the decoder reads from a word is the word's immediate (R56). -/
theorem req_eq_of_decode_quant {w : Word} {req : Int} (h : decode w = .ok (.quant req)) : req = reqOfWord w := by
  unfold decode at h
  split_ifs at h <;> cases h
  rfl

/-- Every word of QUANT's row is read as a QUANT of its immediate (R51, R56). -/
theorem decode_of_matches_rowQuant {w : Word} (h : rowQuant.Matches w) : decode w = .ok (.quant (reqOfWord w)) := by
  obtain ⟨i, hd, hrow⟩ := (Row.matches_iff_decode (rowOf_mem_opcodeTable (.quant 0)) w).mp h
  cases i
  case quant req => rw [hd, req_eq_of_decode_quant hd]
  all_goals simp [rowOf, rowNop, rowTick, rowRddeb, rowQuant, rowQnull, rowRdq] at hrow

/-- The immediate of a request in range is the request: nothing is lost in its 16 bits (R56). -/
theorem reqOfWord_encode_quant {req : Int} (h : RequestInRange req) : reqOfWord (encode (.quant req)) = req := by
  obtain ⟨hlow, hhigh⟩ := h
  have himm : (encode (.quant req)).extractLsb' 0 16 = BitVec.ofInt 16 req := by
    have hpattern : (0x30000000#32 : Word).extractLsb' 0 16 = 0#16 := by decide
    show (0x30000000#32 ||| immField req).extractLsb' 0 16 = _
    rw [BitVec.extractLsb'_or, hpattern, BitVec.zero_or, immField]
    simp [BitVec.extractLsb'_setWidth_of_le]
  rw [reqOfWord, himm, BitVec.toInt_ofInt]
  exact Int.bmod_eq_of_le (by omega) (by omega)

/-- A request in range survives encoding and decoding (R56, R59). -/
theorem decode_encode_quant {req : Int} (h : RequestInRange req) : decode (encode (.quant req)) = .ok (.quant req) := by
  rw [decode_of_matches_rowQuant (Laws.EncodeMatchesRow.quant req), reqOfWord_encode_quant h]

namespace Machine

/-! ## The clamp (R91) -/

theorem clampRequest_nonneg (p : Params) (req : Int) : 0 ≤ clampRequest p req := by
  unfold clampRequest
  omega

theorem clampRequest_le_max (p : Params) (req : Int) : clampRequest p req ≤ (p.maxTxPowerMw.val : Int) :=
  min_le_right _ _

theorem clampRequest_of_neg (p : Params) {req : Int} (h : req < 0) : clampRequest p req = 0 := by
  unfold clampRequest
  omega

theorem not_over_of_neg (p : Params) {req : Int} (h : req < 0) : ¬ Over p req := by
  unfold Over
  omega

/-! ## The bucket is the least index with a bound above (R92) -/

/-- An index of the list is the one found exactly when its entry is above `c` and no earlier entry is. -/
theorem firstAbove_eq_iff {bs : List Int} {c : Int} {i : Nat} (hi : i < bs.length) :
    firstAbove bs c = i ↔ c < bs.getD i 0 ∧ ∀ j, j < i → bs.getD j 0 ≤ c := by
  constructor
  · rintro rfl
    exact ⟨lt_getD_firstAbove hi, fun _ => getD_le_of_lt_firstAbove⟩
  · rintro ⟨habove, hbelow⟩
    rcases Nat.lt_trichotomy (firstAbove bs c) i with hlt | heq | hgt
    · exact absurd (hbelow _ hlt) (not_le.mpr (lt_getD_firstAbove (hlt.trans hi)))
    · exact heq
    · exact absurd habove (not_lt.mpr (getD_le_of_lt_firstAbove hgt))

/-- Nothing is found exactly when no entry is above `c`. -/
theorem firstAbove_eq_length_iff (bs : List Int) (c : Int) :
    firstAbove bs c = bs.length ↔ ∀ j, j < bs.length → bs.getD j 0 ≤ c := by
  constructor
  · intro h j hj
    exact getD_le_of_lt_firstAbove (h ▸ hj)
  · intro h
    refine (firstAbove_le_length bs c).antisymm (le_of_not_gt fun hlt => ?_)
    exact absurd (h _ hlt) (not_le.mpr (lt_getD_firstAbove hlt))

/-- A bucket is its index: no index is cut short by 4 bits. -/
theorem bucket_eq_ofNat_iff (c : Int) {i : Nat} (hi : i < 16) :
    bucket c = BitVec.ofNat 4 i ↔ firstAbove bounds c = i := by
  rw [← BitVec.toNat_inj, bucket_toNat, BitVec.toNat_ofNat, Nat.mod_eq_of_lt hi]

/-- R92 for the buckets that have a bound. -/
theorem bucket_eq_iff_least (c : Int) {i : Nat} (hi : i < 15) :
    bucket c = BitVec.ofNat 4 i ↔ c < bounds.getD i 0 ∧ ∀ j, j < i → bounds.getD j 0 ≤ c :=
  (bucket_eq_ofNat_iff c (by omega)).trans (firstAbove_eq_iff hi)

/-- R92 for the last bucket. -/
theorem bucket_eq_last_iff (c : Int) : bucket c = 15#4 ↔ ∀ j, j < 15 → bounds.getD j 0 ≤ c :=
  (bucket_eq_ofNat_iff c (by decide)).trans (firstAbove_eq_length_iff bounds c)

/-! ## The rows of the bucket table (R90) -/

theorem bounds_strictly_rise {i j : Nat} (hij : i < j) (hj : j < 15) : bounds.getD i 0 < bounds.getD j 0 := by
  have hrise : ∀ j < 15, ∀ i < j, bounds.getD i 0 < bounds.getD j 0 := by decide
  exact hrise j hj i hij

/-- A value that has reached a bound has reached every bound before it. -/
theorem bounds_le_of_le {i j : Nat} {c : Int} (hji : j ≤ i) (hi : i < 15) (h : bounds.getD i 0 ≤ c) :
    bounds.getD j 0 ≤ c := by
  rcases Nat.lt_or_eq_of_le hji with hlt | rfl
  · exact (bounds_strictly_rise hlt hi).le.trans h
  · exact h

theorem bucket_of_lt_first_bound {c : Int} (h : c < bounds.getD 0 0) : bucket c = 0#4 :=
  (bucket_eq_iff_least c (by decide)).mpr ⟨h, fun _ hj => absurd hj (Nat.not_lt_zero _)⟩

/-- Between two adjacent bounds the bucket is that of the upper one. -/
theorem bucket_of_between_bounds {c : Int} (i : Nat) (hi : i + 1 < 15) (hlow : bounds.getD i 0 ≤ c)
    (hhigh : c < bounds.getD (i + 1) 0) : bucket c = BitVec.ofNat 4 (i + 1) :=
  (bucket_eq_iff_least c hi).mpr ⟨hhigh, fun _ hj => bounds_le_of_le (Nat.le_of_lt_succ hj) (by omega) hlow⟩

theorem bucket_of_last_bound_le {c : Int} (h : bounds.getD 14 0 ≤ c) : bucket c = 15#4 :=
  (bucket_eq_last_iff c).mpr fun _ hj => bounds_le_of_le (Nat.le_of_lt_succ hj) (by decide) h

/-- The bucket of a value fixes its snapped power. -/
theorem bucket_and_snap_of_bucket_eq {c : Int} {b : BitVec 4} (h : bucket c = b) :
    bucket c = b ∧ snap (bucket c) = snap b :=
  ⟨h, congrArg snap h⟩

/-- Snapping a snapped value changes nothing: each lies in its own bucket. -/
theorem bucket_snap : ∀ b : BitVec 4, bucket ((snap b).toNat : Int) = b := by
  decide

/-! ## Drive level and status (R93, R94) -/

/-- The smaller of two bytes fits in a byte. -/
theorem drive_toNat (p : Params) (b : BitVec 4) :
    (drive p b).toNat = min (driveEntry p b).toNat p.maxDrive.toNat := by
  rw [drive, BitVec.toNat_ofNat]
  exact Nat.mod_eq_of_lt (min_lt_of_right_lt p.maxDrive.isLt)

/-- The status of a request above the maximum (R94). -/
theorem quantStatus_of_over {p : Params} {req : Int} (h : Over p req) :
    quantStatus p req = statPowerLevelNotSupported :=
  if_pos h

/-! ## The obligations -/

/-- Settles O11: the word is that of the encoder, and the meaning of QUANT is one record update. -/
theorem quantWritesResultAndStatus : Obligations.QuantWritesResultAndStatus := by
  refine ⟨fun req hlow hhigh => decode_encode_quant ⟨hlow, hhigh⟩, ?_⟩
  rintro req s b st rfl rfl
  rfl

/-- Settles O17: each row is the interval below its bound, from the bound before it on. -/
theorem bucketTableAsGiven : Obligations.BucketTableAsGiven := by
  refine ⟨fun c => ?_, fun _ _ => bounds_strictly_rise, bucket_snap⟩
  have row : ∀ i, i + 1 < 15 → bounds.getD i 0 ≤ c → c < bounds.getD (i + 1) 0 →
      bucket c = BitVec.ofNat 4 (i + 1) ∧ snap (bucket c) = snap (BitVec.ofNat 4 (i + 1)) :=
    fun i hi hlow hhigh => bucket_and_snap_of_bucket_eq (bucket_of_between_bounds i hi hlow hhigh)
  exact
    ⟨fun h => bucket_and_snap_of_bucket_eq (bucket_of_lt_first_bound h),
      row 0 (by decide), row 1 (by decide), row 2 (by decide), row 3 (by decide), row 4 (by decide),
      row 5 (by decide), row 6 (by decide), row 7 (by decide), row 8 (by decide), row 9 (by decide),
      row 10 (by decide), row 11 (by decide), row 12 (by decide), row 13 (by decide),
      fun h => bucket_and_snap_of_bucket_eq (bucket_of_last_bound_le h)⟩

/-- Settles O19, from what the search through the bounds finds. -/
theorem bucketIsLeastBoundAbove : Obligations.BucketIsLeastBoundAbove := by
  refine ⟨fun c _ => bucket_eq_iff_least c, bucket_eq_last_iff, fun req s => ?_⟩
  obtain ⟨t, ht⟩ : ∃ t, exec (.quant req) s = .next t := ⟨_, rfl⟩
  obtain ⟨-, hmw, -, -, -⟩ := exec_quant_writes ht
  exact ⟨t, ht, hmw⟩

/-- Settles O21: QUANT writes the same result on both sides of the maximum, and its response shows the status. -/
theorem overRangeRequestIsReportedAndQuantized : Obligations.OverRangeRequestIsReportedAndQuantized := by
  intro req s
  obtain ⟨t, ht⟩ : ∃ t, exec (.quant req) s = .next t := ⟨_, rfl⟩
  obtain ⟨hbkt, hmw, hdrv, hstat, hrsp⟩ := exec_quant_writes ht
  have hshown : t.rsp.extractLsb' 24 2 = t.qStat := by rw [hrsp, rspQ_extract_qStat]
  refine ⟨t, ht, fun hover => ?_, fun hover => ?_, hbkt, hmw, hdrv⟩
  · have hst := hstat.trans (quantStatus_of_over hover)
    exact ⟨hst, hshown.trans hst⟩
  · have hst := hstat.trans (quantStatus_of_not_over hover)
    exact ⟨hst, hshown.trans hst⟩

/-- Settles O12: the meaning of QNULL, its operations written out as one record update. -/
theorem qnullReportsLogicErrorOnly : Obligations.QnullReportsLogicErrorOnly :=
  ⟨by decide, fun _ => rfl⟩

/-- Settles O13: the meaning of RDQ, its operations written out as one record update. -/
theorem rdqReturnsResult : Obligations.RdqReturnsResult :=
  ⟨by decide, fun _ => rfl⟩

/-- Settles O18, from the bounds of the clamp. -/
theorem clampedRequestInRange : Obligations.ClampedRequestInRange :=
  fun p req =>
    ⟨rfl, clampRequest_nonneg p req, clampRequest_le_max p req,
      fun h => ⟨clampRequest_of_neg p h, not_over_of_neg p h⟩, Iff.rfl⟩

/-- Settles O20: the drive level is not cut short by its 8 bits. -/
theorem driveIsClampedTableEntry : Obligations.DriveIsClampedTableEntry :=
  fun p b => drive_toNat p (BitVec.ofFin b)

end Machine

end Sys2Proof

/-! # NOP and illegal words (spec/42_control.md) -/

namespace Sys2Proof.Machine

/-- The report of an illegal word is one record update: `RSP` takes form RI and nothing else changes (R111). -/
theorem State.reportIllegal_eq (s : State) : s.reportIllegal = { s with rsp := 0x80000000#32 } := rfl

/-- Settles O14: a word that no row matches is rejected by the decoder, and its report writes the response only. -/
theorem illegalWordSetsIllOnly : Obligations.IllegalWordSetsIllOnly := by
  intro s w raw rest hpresents hnoRow
  rw [step_of_noRowMatches hpresents hnoRow, State.reportIllegal_eq]

/-- Settles O8: the meaning of NOP, its response written out as one record update. -/
theorem nopSetsResponseOnly : Obligations.NopSetsResponseOnly :=
  ⟨by decide, fun _ => rfl⟩

end Sys2Proof.Machine

/-! # The two error conditions: PowerLevelNotSupported and LogicError (spec/60_exceptions.md) -/

namespace Sys2Proof.Machine

/-- QUANT reports PowerLevelNotSupported only for a request above the maximum (R94). -/
theorem over_of_quantStatus_notSupported {p : Params} {req : Int}
    (h : quantStatus p req = statPowerLevelNotSupported) : Over p req := by
  by_contra hover
  rw [quantStatus_of_not_over hover] at h
  exact absurd h (by decide)

/-- QUANT never reports LogicError (R122). -/
theorem quantStatus_ne_logicError (p : Params) (req : Int) : quantStatus p req ≠ statLogicError := by
  unfold quantStatus
  split <;> decide

/-- A response of form RQ shows the status in its bits 25 to 24 (R57). -/
theorem rsp_status_of_rspQ {t : State} (h : t.rsp = rspQ t) : t.rsp.extractLsb' 24 2 = t.qStat := by
  rw [h, rspQ_extract_qStat]

/-- What can have changed the status: nothing but a reset, a QUANT or a QNULL, each with the code it writes (R28). -/
theorem step_status_change_cases {s t : State} {e : Event} {rest : List Event} (he : s.events = e :: rest)
    (h : step s = .next t) (hp : e ≠ .powerCycle) (hchange : t.qStat ≠ s.qStat) :
    t.qStat = statNoError ∨ (∃ req, e.Executes (.quant req) ∧ t.qStat = quantStatus s.params req) ∨
      (e.Executes .qnull ∧ t.qStat = statLogicError) := by
  obtain ⟨hreset, hquant, hqnull, hframe, -⟩ := statusWrittenByQuantQnullAndReset s t e rest he h hp
  by_cases hr : e.IsReset
  · exact .inl (hreset hr)
  by_cases hn : e.Executes .qnull
  · exact .inr (.inr ⟨hn, hqnull hn⟩)
  by_cases hq : ∃ req, e.Executes (.quant req)
  · obtain ⟨req, hx⟩ := hq
    exact .inr (.inl ⟨req, hx, hquant req hx⟩)
  · exact absurd (hframe hr (not_exists.mp hq) hn) hchange

/-- The only cause of PowerLevelNotSupported is a QUANT above the maximum (R121). -/
theorem executes_quant_over_of_notSupported {s t : State} {e : Event} {rest : List Event}
    (he : s.events = e :: rest) (h : step s = .next t) (hp : e ≠ .powerCycle)
    (ht : t.qStat = statPowerLevelNotSupported) (hs : s.qStat ≠ statPowerLevelNotSupported) :
    ∃ req, e.Executes (.quant req) ∧ Over s.params req := by
  rcases step_status_change_cases he h hp (ht ▸ hs.symm) with hstat | ⟨req, hx, hstat⟩ | ⟨-, hstat⟩ <;>
    rw [ht] at hstat
  · exact absurd hstat (by decide)
  · exact ⟨req, hx, over_of_quantStatus_notSupported hstat.symm⟩
  · exact absurd hstat (by decide)

/-- The only cause of LogicError is a QNULL (R122). -/
theorem executes_qnull_of_logicError {s t : State} {e : Event} {rest : List Event}
    (he : s.events = e :: rest) (h : step s = .next t) (hp : e ≠ .powerCycle)
    (ht : t.qStat = statLogicError) (hs : s.qStat ≠ statLogicError) : e.Executes .qnull := by
  rcases step_status_change_cases he h hp (ht ▸ hs.symm) with hstat | ⟨req, -, hstat⟩ | ⟨hx, -⟩
  · rw [ht] at hstat
    exact absurd hstat (by decide)
  · rw [ht] at hstat
    exact absurd hstat.symm (quantStatus_ne_logicError s.params req)
  · exact hx

/-- Settles O22: the causes are read off the ways in which a status can change, the effects off what QUANT and QNULL
write. -/
theorem conditionsHaveTheirOnlyCause : Obligations.ConditionsHaveTheirOnlyCause := by
  intro s t e rest he hp h
  refine ⟨executes_quant_over_of_notSupported he h hp, executes_qnull_of_logicError he h hp, ?_, ?_⟩
  · intro req hx hover
    obtain ⟨p, hexec⟩ := step_of_executes he h hx
    obtain ⟨hbkt, hmw, hdrv, hstat, hrsp⟩ := exec_quant_writes hexec
    have hst := hstat.trans (quantStatus_of_over hover)
    exact ⟨hst, (rsp_status_of_rspQ hrsp).trans hst, hbkt, hbkt ▸ hmw, hbkt ▸ hdrv⟩
  · intro hx
    obtain ⟨p, hexec⟩ := step_of_executes he h hx
    obtain ⟨hst, hrsp⟩ := exec_qnull_writes hexec
    have hresult := exec_result_frame hexec (by simp)
    exact ⟨hst, (rsp_status_of_rspQ hrsp).trans hst, hresult⟩

end Sys2Proof.Machine

/-! # Reset, output pins and commands that follow each other (spec/70_reset_and_hazards.md) -/

namespace Sys2Proof.Machine

/-! ## What an edge can change on the outputs (R150) -/

/-- An event that executes no word is a loss of power, a reset edge or an idle edge (R23). -/
theorem Event.cases_of_commandWord_eq_none {e : Event} (h : e.commandWord = none) :
    e = .powerCycle ∨ e.IsReset ∨ ∃ p, e = .edge p ∧ p.rst = false ∧ p.cmdValid = false := by
  cases e with
  | powerCycle => exact .inl rfl
  | edge p =>
    cases hr : p.rst
    · cases hv : p.cmdValid
      · exact .inr (.inr ⟨p, rfl, hr, hv⟩)
      · cases h.symm.trans (Event.commandWord_edge hr hv)
    · exact .inr (.inl hr)

/-- An edge that neither resets nor executes a word keeps the response (R23). -/
theorem step_keeps_rsp {s t : State} {e : Event} {rest : List Event} (he : s.events = e :: rest)
    (h : step s = .next t) (hp : e ≠ .powerCycle) (hr : ¬ e.IsReset) (hw : e.commandWord = none) :
    t.rsp = s.rsp := by
  rcases Event.cases_of_commandWord_eq_none hw with hpower | hreset | ⟨p, rfl, hrst, hv⟩
  · exact absurd hpower hp
  · exact absurd hreset hr
  · cases h.symm.trans (step_of_idle_edge he hrst hv)
    rfl

/-- An edge that neither resets nor executes TICK keeps the debounced vectors (R26). -/
theorem step_keeps_deb {s t : State} {e : Event} {rest : List Event} (he : s.events = e :: rest)
    (h : step s = .next t) (hp : e ≠ .powerCycle) (hr : ¬ e.IsReset) (hx : ¬ e.Executes .tick) :
    t.deb = s.deb := by
  obtain ⟨p, ⟨i, hi, hexec⟩ | ⟨v, rfl⟩⟩ := step_executes_or_responds he h hp hr
  · exact (exec_debouncer hexec (hi.ne hx)).2
  · rfl

/-! ## Two commands at adjacent edges (R146) -/

/-- A reset block runs a schedule of two command edges to the end: the second command starts from the state that the
first left. -/
theorem runSchedule_two_commands {s : State} {w v : Word} {i j : Instr} (hs : s.hasReset = true)
    (hi : decode w = .ok i) (hj : decode v = .ok j) (raw raw' : PerPort Byte) :
    ∃ u t, exec i (s.present (commandPins w raw) [.edge (commandPins v raw')]) = .next u ∧
      exec j (u.present (commandPins v raw') []) = .next t ∧
      runSchedule s [.edge (commandPins w raw), .edge (commandPins v raw')] = .next t := by
  obtain ⟨u, hu⟩ := runWord_completes w (s.present (commandPins w raw) [.edge (commandPins v raw')])
  obtain ⟨t, ht⟩ := runWord_completes v (u.present (commandPins v raw') [])
  obtain ⟨-, hreset, -, hevents, -⟩ := runWord_frame hu
  have hfirst := step_of_presents (s := s.withSchedule [.edge (commandPins w raw), .edge (commandPins v raw')])
    ⟨hs, rfl⟩
  have hsecond := step_of_presents (s := u) ⟨hreset.trans hs, hevents⟩
  refine ⟨u, t, runWord_of_ok hi _ ▸ hu, runWord_of_ok hj _ ▸ ht, ?_⟩
  calc runSchedule s [.edge (commandPins w raw), .edge (commandPins v raw')]
    _ = run 1 u := run_succ (hfirst.trans hu)
    _ = run 0 t := run_succ (hsecond.trans ht)
    _ = .next t := run_zero t

/-- The decoder reads RDDEB of either port back from its word (R55). -/
theorem decode_encode_rddeb (p : Port) : decode (encode (.rddeb p)) = .ok (.rddeb p) := by
  cases p <;> decide

/-! ## The obligations -/

/-- Settles O39, from what keeps the response and what keeps the debounced vectors. -/
theorem outputsHoldBetweenCommands : Obligations.OutputsHoldBetweenCommands := by
  intro s t e rest he h hp
  by_cases hr : e.IsReset
  · exact ⟨fun _ => .inl hr, fun _ => .inl hr⟩
  refine ⟨fun hchange => .inr ?_, fun hchange => .inr ?_⟩
  · by_contra hw
    have hnone : e.commandWord = none := Option.eq_none_iff_forall_ne_some.mpr (not_exists.mp hw)
    exact hchange (step_keeps_rsp he h hp hr hnone)
  · by_contra hx
    have hdeb := step_keeps_deb he h hp hr hx
    rcases hchange with h0 | h1
    · exact h0 (congrArg PerPort.port0 hdeb)
    · exact h1 (congrArg PerPort.port1 hdeb)

/-- Settles O41: the second command reads what the first wrote, and leaves it as it is. -/
theorem readRightAfterWriteSeesIt : Obligations.ReadRightAfterWriteSeesIt := by
  intro s hs
  refine ⟨fun raw raw' p => ?_, fun raw raw' req hreq => ?_⟩
  · obtain ⟨u, t, htick, hread, hrun⟩ :=
      runSchedule_two_commands hs (by decide : decode (encode .tick) = .ok .tick) (decode_encode_rddeb p) raw raw'
    have hdeb : t.deb = u.deb := (exec_debouncer hread (by simp)).2
    exact ⟨t, hrun, hdeb ▸ exec_tick_deb htick p, exec_rddeb_rsp hread⟩
  · obtain ⟨u, t, hquant, hread, hrun⟩ :=
      runSchedule_two_commands hs (decode_encode_quant hreq) (by decide : decode (encode .rdq) = .ok .rdq) raw raw'
    obtain ⟨hbkt, hmw, hdrv, -, -⟩ := exec_quant_writes hquant
    obtain ⟨hmw', hdrv', hbkt'⟩ := exec_result_frame hread (by simp)
    exact ⟨t, hrun, hbkt'.trans hbkt, hmw'.trans hmw, hdrv'.trans hdrv, exec_rdq_writes hread⟩

/-- Settles O29: with no reset edge, a presented command reaches the test of `hasReset`, which refuses it. -/
theorem commandBeforeResetIsRefused : Obligations.CommandBeforeResetIsRefused := by
  intro s p rest he hs hr hv
  simp [step_edge he, clockEdge, hr, hv, hs]

end Sys2Proof.Machine

/-! # The encoder and the decoder are inverse (spec/30_encoding.md) -/

namespace Sys2Proof

/-! ## A word of a row is the row's pattern and its operand bits -/

/-- The bits that a row's mask leaves free are all that a word of the row adds to the pattern (R51). -/
theorem Row.Matches.pattern_or_operand {r : Row} {w : Word} (h : r.Matches w) :
    r.pattern ||| (w &&& ~~~r.mask) = w :=
  calc r.pattern ||| (w &&& ~~~r.mask)
    _ = (w &&& r.mask) ||| (w &&& ~~~r.mask) := by rw [h]
    _ = w &&& (r.mask ||| ~~~r.mask) := BitVec.and_or_distrib_left.symm
    _ = w := by rw [BitVec.or_not_self, BitVec.and_allOnes]

/-- The only port that the decoder reads from a word is the word's port operand (R55). -/
theorem port_eq_of_decode_rddeb {w : Word} {p : Port} (h : decode w = .ok (.rddeb p)) : p = portOfWord w := by
  unfold decode at h
  split_ifs at h <;> cases h
  rfl

/-- The field `P` of the port that a word names is bit 0 of the word (R55). -/
theorem portField_portOfWord (w : Word) : portField (portOfWord w) = w &&& ~~~rowRddeb.mask := by
  have hmask : ~~~rowRddeb.mask = BitVec.twoPow 32 0 := by decide
  rw [hmask, BitVec.and_twoPow, portOfWord]
  cases w.getLsbD 0 <;> rfl

/-- The field `IMM16` of the request that a word carries is the low half of the word (R56). -/
theorem immField_reqOfWord (w : Word) : immField (reqOfWord w) = w &&& ~~~rowQuant.mask := by
  have hmask : ~~~rowQuant.mask = (BitVec.allOnes 16).setWidth 32 := by decide
  rw [immField, reqOfWord, BitVec.ofInt_toInt, hmask]
  ext j hj
  rw [BitVec.getElem_setWidth, BitVec.getLsbD_extractLsb', BitVec.getElem_and, BitVec.getElem_setWidth,
    BitVec.getLsbD_allOnes, Nat.zero_add, BitVec.getLsbD_eq_getElem hj, Bool.and_comm]

/-- The operand bits of the command read from a word are the bits that its row leaves free in the word. -/
theorem operandField_of_decode {w : Word} {i : Instr} (h : decode w = .ok i) :
    operandField i = w &&& ~~~(rowOf i).mask := by
  have hfixed : (0#32 : Word) = w &&& ~~~0xFFFFFFFF#32 := by
    rw [show ~~~(0xFFFFFFFF#32 : Word) = 0#32 by decide, BitVec.and_zero]
  cases i with
  | nop => exact hfixed
  | tick => exact hfixed
  | rddeb p => exact port_eq_of_decode_rddeb h ▸ portField_portOfWord w
  | quant req => exact req_eq_of_decode_quant h ▸ immField_reqOfWord w
  | qnull => exact hfixed
  | rdq => exact hfixed

/-- The immediate of every word is a request in range (R56). -/
theorem reqOfWord_inRange (w : Word) : RequestInRange (reqOfWord w) := by
  have hlow := BitVec.le_toInt (w.extractLsb' 0 16)
  have hhigh := BitVec.toInt_lt (x := w.extractLsb' 0 16)
  unfold RequestInRange reqOfWord
  omega

/-- The decoder reads well-formed commands only. -/
theorem wellFormed_of_decode {w : Word} {i : Instr} (h : decode w = .ok i) : i.WellFormed := by
  cases i with
  | quant req => exact req_eq_of_decode_quant h ▸ reqOfWord_inRange w
  | nop | tick | rddeb p | qnull | rdq => trivial

namespace Machine

/-! ## The obligations -/

/-- Settles O2: RDDEB and QUANT read their operand back, and the other commands have one word each. -/
theorem decodeOfEncode : Obligations.DecodeOfEncode := by
  intro i hi
  cases i with
  | rddeb p => exact decode_encode_rddeb p
  | quant req => exact decode_encode_quant hi
  | nop | tick | qnull | rdq => decide

/-- Settles O3: the word is its row's pattern with the operand bits that the row leaves free. -/
theorem encodeOfDecode : Obligations.EncodeOfDecode := by
  intro w i h
  refine ⟨wellFormed_of_decode h, ?_⟩
  rw [encode, operandField_of_decode h, (matches_rowOf_of_decode h).pattern_or_operand]

/-- Settles O51: a word that no row matches is rejected under the name that its opcode field decides. -/
theorem illegalWordIsNamedByItsOpcode : Obligations.IllegalWordIsNamedByItsOpcode := by
  intro w hn
  have hname : decode w = .error (illegalName w) := by
    obtain ⟨i, -, hm⟩ | ⟨-, he⟩ := decode_cases w
    · exact absurd hm (hn _ (rowOf_mem_opcodeTable i))
    · exact he
  rw [hname, illegalName]
  by_cases hop : 6 ≤ (opcodeField w).toNat
  · simp [hop]
  · simp [hop, not_le.mp hop]

/-- Settles O1, by running the decoder on each word. -/
theorem knownWordsDecode : Obligations.KnownWordsDecode := by
  unfold Obligations.KnownWordsDecode
  decide

/-- Settles O7, by running the assembler on each line. -/
theorem listingLinesAssemble : Obligations.ListingLinesAssemble := by
  unfold Obligations.ListingLinesAssemble
  decide

end Machine

end Sys2Proof

/-! # The invariant and the step (spec/10_state.md) -/

namespace Sys2Proof.Machine

/-! ## Commands keep the invariant -/

/-- Every command leaves the power and the drive level of the bucket it leaves (R31 a, b). -/
theorem exec_keeps_result {i : Instr} {s t : State} (h : exec i s = .next t) (hmw : s.qMw = snap s.qBkt)
    (hdrv : s.qDrv = drive s.params s.qBkt) : t.qMw = snap t.qBkt ∧ t.qDrv = drive t.params t.qBkt := by
  obtain ⟨hparams, -⟩ := exec_frame h
  by_cases hi : ∃ req, i = .quant req
  · obtain ⟨req, rfl⟩ := hi
    obtain ⟨hb, hm, hd, -⟩ := exec_quant_writes h
    exact ⟨hb ▸ hm, hparams ▸ hb ▸ hd⟩
  · obtain ⟨hm, hd, hb⟩ := exec_result_frame h (not_exists.mp hi)
    rw [hm, hd, hb, hparams]
    exact ⟨hmw, hdrv⟩

/-- After a TICK, whatever came before, a bit whose three samples agree has their value (R31 d). -/
theorem exec_tick_settles {s t : State} (h : exec .tick s = .next t) (p : Port) (i : Nat)
    (hnm : (t.hist.get p).newest.getLsbD i = (t.hist.get p).middle.getLsbD i)
    (hmo : (t.hist.get p).middle.getLsbD i = (t.hist.get p).oldest.getLsbD i) :
    (t.deb.get p).getLsbD i = (t.hist.get p).newest.getLsbD i := by
  rw [exec_tick_hist h] at hnm hmo ⊢
  rw [exec_tick_deb h, tickDeb_getLsbD]
  exact if_pos ⟨hnm, hmo⟩

/-- Every command keeps the invariant. -/
theorem Inv.exec {i : Instr} {s t : State} (hs : Inv s) (h : exec i s = .next t) : Inv t := by
  obtain ⟨hmw, hdrv⟩ := exec_keeps_result h hs.resultSnapped hs.driveOfBucket
  refine ⟨hmw, hdrv, exec_status_legal h hs.statusLegal, fun p j hj => ?_⟩
  by_cases hi : i = .tick
  · subst hi
    exact exec_tick_settles h p j
  · obtain ⟨hhist, hdeb⟩ := exec_debouncer h hi
    rw [hhist, hdeb]
    exact hs.historySettled p j hj

/-! ## Events keep the invariant -/

/-- The invariant says nothing of the response. -/
theorem Inv.respond {s : State} (h : Inv s) (v : Word) : Inv (s.respond v) :=
  ⟨h.resultSnapped, h.driveOfBucket, h.statusLegal, h.historySettled⟩

/-- The invariant says nothing of the pins. -/
theorem Inv.present {s : State} (h : Inv s) (p : Pins) (rest : List Event) : Inv (s.present p rest) :=
  ⟨h.resultSnapped, h.driveOfBucket, h.statusLegal, h.historySettled⟩

/-- The invariant says nothing of the schedule. -/
theorem Inv.withSchedule {s : State} (h : Inv s) (es : List Event) : Inv (s.withSchedule es) :=
  ⟨h.resultSnapped, h.driveOfBucket, h.statusLegal, h.historySettled⟩

/-- A reset edge establishes the invariant from any state (R33). -/
theorem inv_applyReset (s : State) : Inv s.applyReset := by
  refine ⟨rfl, resetDrive_eq_drive s.params, (by decide : statNoError ≠ 0b11#2), fun p i _ _ _ => ?_⟩
  cases p <;> rfl

/-- The reset state of every parameter set meets the invariant: a reset edge leaves it as it is. -/
theorem inv_initial (p : Params) : Inv (State.initial p) :=
  applyReset_initial p ▸ inv_applyReset (State.initial p)

/-- Every word, illegal ones included, keeps the invariant. -/
theorem Inv.runWord {w : Word} {s t : State} (hs : Inv s) (h : runWord w s = .next t) : Inv t := by
  obtain ⟨i, -, hexec⟩ | ⟨e, -, rfl⟩ := runWord_cases h
  · exact hs.exec hexec
  · exact hs.respond rspI

/-! ## The step of each event -/

/-- The step of a loss of power (R32). -/
theorem step_of_powerCycle {s : State} {rest : List Event} (he : s.events = .powerCycle :: rest) :
    step s = .next (s.powerUp rest) := by
  simp only [step, takeEvent, he]

/-- After a loss of power nothing is left of the block but its parameters and what lies outside it (R32). -/
theorem powerUp_congr {s u : State} (hparams : s.params = u.params) (hpins : s.pins = u.pins)
    (htaken : s.taken = u.taken) (rest : List Event) : s.powerUp rest = u.powerUp rest := by
  simp only [State.powerUp, hparams, hpins, htaken]

/-- `withFetchWord` puts the word's edge before all other events. -/
theorem withFetchWord_presents {s : State} (hs : s.hasReset = true) (nbits w : Nat) :
    (s.withFetchWord nbits w).Presents (wordOfTable nbits w) (Config.freeRaw s.taken) s.events :=
  ⟨hs, rfl⟩

/-- What the decoder reads from table bits it reads from their word. -/
theorem decode_of_decodeTableWord {nbits w : Nat} {i : Instr} (h : decodeTableWord nbits w = some i) :
    decode (wordOfTable nbits w) = .ok i := by
  unfold decodeTableWord at h
  cases hd : decode (wordOfTable nbits w) with
  | ok j =>
    rw [hd] at h
    cases h
    rfl
  | error e =>
    rw [hd] at h
    cases h

/-! ## The obligations -/

/-- Settles O43: a loss of power suspends the invariant, a reset edge establishes it, and every word keeps it. -/
theorem stepKeepsInvariant : Obligations.StepKeepsInvariant := by
  intro s t hs h ht
  obtain ⟨-, rfl⟩ | ⟨rest, -, rfl⟩ | ⟨p, rest, -, -, rfl⟩ | ⟨p, rest, -, -, -, rfl⟩ |
    ⟨p, rest, -, -, -, hreset, hw⟩ := step_cases h
  · exact hs ht
  · cases ht
  · exact inv_applyReset _
  · exact (hs ht).present p rest
  · exact ((hs hreset).present p rest).runWord hw

/-- Settles O42: the reset state is what a reset edge leaves. -/
theorem invariantHoldsAtReset : Obligations.InvariantHoldsAtReset :=
  ⟨inv_initial, fun _ => inv_initial Config.params⟩

/-- Settles O44, by induction on the steps: safe at reset, and every step keeps it. -/
theorem reachableStatesMeetInvariant : Obligations.ReachableStatesMeetInvariant :=
  fun p es k t => run_induction stepKeepsInvariant k _ t fun _ => (inv_initial p).withSchedule es

/-- Settles O35: no word writes the parameters, and no other event does. -/
theorem parametersNeverChange : Obligations.ParametersNeverChange := by
  intro s t h
  obtain ⟨-, rfl⟩ | ⟨rest, -, rfl⟩ | ⟨p, rest, -, -, rfl⟩ | ⟨p, rest, -, -, -, rfl⟩ |
    ⟨p, rest, -, -, -, -, hw⟩ := step_cases h
  · rfl
  · rfl
  · rfl
  · rfl
  · exact (runWord_frame hw).1

/-- Settles O34: each event completes, but for a command edge that no reset has come before. -/
theorem everyStepCompletesOnceReset : Obligations.EveryStepCompletesOnceReset := by
  intro s
  match he : s.events with
  | [] => exact .inl ⟨s, by simp only [step, takeEvent, he]⟩
  | .powerCycle :: rest => exact .inl ⟨_, step_of_powerCycle he⟩
  | .edge p :: rest =>
    cases hr : p.rst with
    | true => exact .inl ⟨_, step_of_reset_edge he hr⟩
    | false =>
      cases hv : p.cmdValid with
      | false => exact .inl ⟨_, step_of_idle_edge he hr hv⟩
      | true =>
        cases hs : s.hasReset with
        | true => exact .inl (step_of_command_edge he hr hv hs ▸ runWord_completes p.cmd _)
        | false =>
          exact .inr ⟨commandBeforeResetIsRefused s p rest he hs hr hv, rfl,
            .edge p, rest, p.cmd, rfl, Event.commandWord_edge hr hv⟩

/-- Settles O30: an idle edge is recorded and does nothing else. -/
theorem idleEdgeChangesNoField : Obligations.IdleEdgeChangesNoField :=
  fun _ _ _ he hr hv => step_of_idle_edge he hr hv

/-- Settles O31: what power-up leaves depends on the parameters, the pins, the schedule and the count alone. -/
theorem powerCycleLosesTheState : Obligations.PowerCycleLosesTheState := by
  intro s u rest hs hu hparams hpins htaken
  exact ⟨s.powerUp rest, step_of_powerCycle hs,
    powerUp_congr hparams hpins htaken rest ▸ step_of_powerCycle hu, rfl, rfl⟩

/-- Settles O32: the step runs the presented word, which does what its command does. -/
theorem stepRunsDecodedCommand : Obligations.StepRunsDecodedCommand :=
  fun _ _ _ _ _ hp hd => (step_of_presents hp).trans (runWord_of_ok hd _)

/-- Settles O33: the word is presented at the very next edge, with the free levels on the raw ports. -/
theorem presentedWordRunsNext : Obligations.PresentedWordRunsNext :=
  fun s nbits w i hs hd =>
    ⟨Config.freeRaw s.taken,
      stepRunsDecodedCommand _ _ _ _ i (withFetchWord_presents hs nbits w) (decode_of_decodeTableWord hd)⟩

/-- Settles O52: the fields of the reset state, the drive level being that of bucket 0. -/
theorem resetStateHasTheResetValues : Obligations.ResetStateHasTheResetValues := by
  refine ⟨fun p => ⟨fun q => ?_, rfl, rfl, drive_toNat p 0#4, rfl, rfl, rfl, rfl, rfl, rfl⟩, rfl⟩
  cases q <;> exact ⟨rfl, rfl, rfl, rfl⟩

/-- Settles O40: a command other than TICK reads nothing that it changes, but for the result and status it has just set,
so the second time it writes the same values. -/
theorem repeatedCommandIsIdempotent : Obligations.RepeatedCommandIsIdempotent := by
  intro i s hi
  cases i with
  | tick => exact absurd rfl hi
  | nop | rddeb p | quant req | qnull | rdq => exact ⟨_, rfl, rfl⟩

end Sys2Proof.Machine

/-! # What schedules of samples do to a debounced bit (spec/40_debouncer.md, spec/70_reset_and_hazards.md) -/

namespace Sys2Proof.Machine

/-! ## The filter over a list of samples -/

/-- A bit after one sample (R72). -/
theorem PortFilter.sample_deb_getLsbD (f : PortFilter) (x : Byte) (i : Nat) :
    (f.sample x).deb.getLsbD i =
      if x.getLsbD i = f.hist.newest.getLsbD i ∧ f.hist.newest.getLsbD i = f.hist.middle.getLsbD i
      then x.getLsbD i else f.deb.getLsbD i :=
  filt_getLsbD _ _ _ _ i

/-- A bit whose last three samples agree has their value, whatever came before. -/
theorem foldl_sample_of_last_three_agree (f : PortFilter) (before : List Byte) {x y z : Byte} {i : Nat}
    (hxy : x.getLsbD i = y.getLsbD i) (hyz : y.getLsbD i = z.getLsbD i) :
    ((before ++ [x, y, z]).foldl PortFilter.sample f).deb.getLsbD i = z.getLsbD i := by
  rw [List.foldl_append]
  exact (PortFilter.sample_deb_getLsbD _ z i).trans (if_pos ⟨hyz.symm, hxy.symm⟩)

/-- A bit keeps its value `d` while no three samples in a row, those of the history included, are all `!d`. -/
theorem foldl_sample_of_noThreeEqual (xs : List Byte) {f : PortFilter} {i : Nat} {d : Bool}
    (hd : f.deb.getLsbD i = d)
    (h : NoThreeEqual (!d)
      (f.hist.middle.getLsbD i :: f.hist.newest.getLsbD i :: xs.map fun x => x.getLsbD i)) :
    (xs.foldl PortFilter.sample f).deb.getLsbD i = d := by
  induction xs generalizing f with
  | nil => exact hd
  | cons x xs ih =>
    obtain ⟨hthree, hrest⟩ := h
    refine ih ?_ hrest
    rw [PortFilter.sample_deb_getLsbD]
    split_ifs with hagree
    · obtain ⟨hxn, hnm⟩ := hagree
      by_contra hne
      have hx : x.getLsbD i = !d := Bool.eq_not_of_ne hne
      exact hthree ⟨hnm ▸ hxn ▸ hx, hxn ▸ hx, hx⟩
    · exact hd

/-- A list without `v` has no three `v` in a row. -/
theorem noThreeEqual_of_forall_ne {v : Bool} {bs : List Bool} (h : ∀ b ∈ bs, b ≠ v) : NoThreeEqual v bs := by
  induction bs with
  | nil => trivial
  | cons a bs ih =>
    obtain ⟨ha, hbs⟩ := List.forall_mem_cons.mp h
    match bs, ih hbs with
    | [], _ => trivial
    | [_], _ => trivial
    | _ :: _ :: _, hrest => exact ⟨fun hthree => ha hthree.1, hrest⟩

/-! ## From reset -/

/-- What the block holds of a port after reset (R33). -/
def PortFilter.cleared : PortFilter := ⟨⟨0#8, 0#8, 0#8⟩, 0#8⟩

theorem initial_portFilter (q : Params) (p : Port) : (State.initial q).portFilter p = PortFilter.cleared := by
  cases p <;> rfl

/-- Through the first two samples the history still holds a zero sample, and no bit rises (R145). -/
theorem foldl_sample_cleared_of_length_le_two {xs : List Byte} (h : xs.length ≤ 2) :
    (xs.foldl PortFilter.sample .cleared).deb = 0x00#8 := by
  match xs, h with
  | [], _ => rfl
  | [x], _ => simp [PortFilter.sample, PortFilter.cleared, filt]
  | [x, y], _ => simp [PortFilter.sample, PortFilter.cleared, filt]

/-- The third sample raises the bits that are set in all three (R145). -/
theorem foldl_sample_cleared_three (x y z : Byte) :
    ([x, y, z].foldl PortFilter.sample .cleared).deb = x &&& y &&& z := by
  have hzero : ([x, y].foldl PortFilter.sample .cleared).deb = 0x00#8 :=
    foldl_sample_cleared_of_length_le_two (by simp)
  show filt ([x, y].foldl PortFilter.sample .cleared).deb z y x = _
  rw [hzero, filt, BitVec.zero_and, BitVec.or_zero, BitVec.and_comm, BitVec.and_comm z y, ← BitVec.and_assoc]

/-- A bit sampled only at 0 stays 0 from reset on (R145). -/
theorem foldl_sample_cleared_of_zero {xs : List Byte} {i : Nat} (h : ∀ x ∈ xs, x.getLsbD i = false) :
    (xs.foldl PortFilter.sample .cleared).deb.getLsbD i = false := by
  refine foldl_sample_of_noThreeEqual xs BitVec.getLsbD_zero (noThreeEqual_of_forall_ne ?_)
  simpa [PortFilter.cleared] using h

/-! ## The obligations -/

/-- Settles O46: the filter keeps the bit where the samples disagree. -/
theorem disagreeingSamplesHoldTheBit : Obligations.DisagreeingSamplesHoldTheBit := by
  intro s p i hdisagree
  refine ⟨_, rfl, ?_⟩
  rw [exec_tick_deb rfl p, tickDeb_getLsbD, if_neg hdisagree]

/-- Settles O48: the schedule runs the filter over its samples, and the last three decide the bit. -/
theorem threeEqualSamplesConverge : Obligations.ThreeEqualSamplesConverge := by
  intro s es p i v before x y z hs hk hsamples hx hy hz
  obtain ⟨t, hrun, ht⟩ := debouncerIsTheFilterOfItsSamples s es hs hk
  refine ⟨t, hrun, ?_⟩
  calc (t.deb.get p).getLsbD i
    _ = ((before ++ [x, y, z]).foldl PortFilter.sample (s.portFilter p)).deb.getLsbD i := by
        rw [← hsamples, ← ht p]
        rfl
    _ = z.getLsbD i := foldl_sample_of_last_three_agree _ before (hx.trans hy.symm) (hy.trans hz.symm)
    _ = v := hz

/-- Settles O49, by induction on the samples that the schedule takes. -/
theorem glitchesNeverReachTheOutput : Obligations.GlitchesNeverReachTheOutput := by
  intro s es p i d hs hk hd hglitch
  obtain ⟨t, hrun, ht⟩ := debouncerIsTheFilterOfItsSamples s es hs hk
  refine ⟨t, hrun, ?_⟩
  show (t.portFilter p).deb.getLsbD i = d
  rw [ht p]
  exact foldl_sample_of_noThreeEqual _ hd hglitch

/-- Settles O50: the schedule runs the filter over its samples from the cleared history. -/
theorem outputsAfterResetNeedThreeSamples : Obligations.OutputsAfterResetNeedThreeSamples := by
  intro q es p hk
  obtain ⟨t, hrun, ht⟩ := debouncerIsTheFilterOfItsSamples (State.initial q) es rfl hk
  have hdeb : t.deb.get p = ((tickSamples p es).foldl PortFilter.sample .cleared).deb :=
    congrArg PortFilter.deb (initial_portFilter q p ▸ ht p)
  refine ⟨t, hrun, ?_, ?_, ?_, ?_⟩ <;> rw [hdeb]
  · exact foldl_sample_cleared_of_length_le_two
  · rintro x y z hsamples
    rw [hsamples, foldl_sample_cleared_three]
  · rintro before x y z hsamples i hxy hyz
    rw [hsamples]
    exact foldl_sample_of_last_three_agree _ before hxy hyz
  · exact fun i => foldl_sample_cleared_of_zero

end Sys2Proof.Machine

/-! # What follows for the quantizer (spec/41_quantizer.md section 5) -/

namespace Sys2Proof.Machine

/-! ## The clamp, the bucket and the power -/

theorem clampRequest_mono (p : Params) {req₁ req₂ : Int} (h : req₁ ≤ req₂) :
    clampRequest p req₁ ≤ clampRequest p req₂ := by
  unfold clampRequest
  omega

/-- A request within the range of the clamp is not changed by it (R91). -/
theorem clampRequest_of_le_max {p : Params} {req : Int} (hzero : 0 ≤ req) (hmax : req ≤ (p.maxTxPowerMw.val : Int)) :
    clampRequest p req = req := by
  unfold clampRequest
  omega

/-- A request above the maximum is clamped to it (R91). -/
theorem clampRequest_of_over {p : Params} {req : Int} (h : Over p req) :
    clampRequest p req = (p.maxTxPowerMw.val : Int) := by
  unfold Over at h
  unfold clampRequest
  omega

theorem bucket_mono {c d : Int} (h : c ≤ d) : (bucket c).toNat ≤ (bucket d).toNat := by
  rw [bucket_toNat, bucket_toNat]
  exact firstAbove_mono bounds h

theorem requestBucket_mono (p : Params) {req₁ req₂ : Int} (h : req₁ ≤ req₂) :
    (requestBucket p req₁).toNat ≤ (requestBucket p req₂).toNat :=
  bucket_mono (clampRequest_mono p h)

/-- The snapped powers of R90 rise with the bucket. -/
theorem snap_mono : ∀ a b : BitVec 4, a.toNat ≤ b.toNat → (snap a).toNat ≤ (snap b).toNat := by
  decide

/-- The last bucket has the largest power, the default maximum (R90, R99). -/
theorem snap_le_5000 (b : BitVec 4) : (snap b).toNat ≤ 5000 :=
  snap_mono b 15#4 (Nat.le_of_lt_succ b.isLt)

/-- A bound above a value bounds the value's bucket (R92). -/
theorem bucket_toNat_le_of_lt_bound {c : Int} {i : Nat} (h : c < bounds.getD i 0) : (bucket c).toNat ≤ i := by
  rw [bucket_toNat]
  exact not_lt.mp fun hlt => absurd (getD_le_of_lt_firstAbove hlt) (not_le.mpr h)

/-- A request of a snapped power within the maximum falls in the bucket of that power. -/
theorem requestBucket_snap {p : Params} {b : BitVec 4} (h : (snap b).toNat ≤ p.maxTxPowerMw.val) :
    requestBucket p ((snap b).toNat : Int) = b := by
  rw [requestBucket, clampRequest_of_le_max (Int.natCast_nonneg _) (Int.ofNat_le.mpr h), bucket_snap]

/-- A power is the snapped value of its bucket exactly when it is a snapped value at all. -/
theorem snap_bucket_eq_iff (n : Nat) : (snap (bucket (n : Int))).toNat = n ↔ ∃ b, (snap b).toNat = n := by
  constructor
  · exact fun h => ⟨_, h⟩
  · rintro ⟨b, rfl⟩
    rw [bucket_snap]

/-! ## The obligations -/

/-- Settles O23: the clamp, the bucket and the power are each monotone. -/
theorem quantizerIsMonotone : Obligations.QuantizerIsMonotone :=
  fun p _ _ h => ⟨requestBucket_mono p h, snap_mono _ _ (requestBucket_mono p h)⟩

/-- Settles O24: the clamp keeps the request, and a snapped power lies in its own bucket. -/
theorem snappedRequestIsItsOwnResult : Obligations.SnappedRequestIsItsOwnResult := by
  intro s b hmax
  obtain ⟨t, ht⟩ : ∃ t, exec (.quant ((snap b).toNat : Int)) s = .next t := ⟨_, rfl⟩
  obtain ⟨hbkt, hmw, -, hstat, -⟩ := exec_quant_writes ht
  rw [requestBucket_snap hmax] at hbkt hmw
  rw [quantStatus_of_not_over (not_lt.mpr (Int.ofNat_le.mpr hmax))] at hstat
  exact ⟨t, ht, hbkt, hmw, hstat⟩

/-- Settles O25: the request is clamped to the maximum, and that is reported. -/
theorem requestJustAboveMaximum : Obligations.RequestJustAboveMaximum := by
  intro s
  have hover : Over s.params ((s.params.maxTxPowerMw.val : Int) + 1) := Int.lt_add_one_of_le le_rfl
  obtain ⟨t, ht⟩ : ∃ t, exec (.quant ((s.params.maxTxPowerMw.val : Int) + 1)) s = .next t := ⟨_, rfl⟩
  obtain ⟨-, hmw, -, hstat, -⟩ := exec_quant_writes ht
  rw [requestBucket, clampRequest_of_over hover] at hmw
  refine ⟨t, ht, hstat.trans (quantStatus_of_over hover), hmw, ?_⟩
  rw [hmw]
  exact snap_bucket_eq_iff _

/-- Settles O26: a clamped request is below every bound that the maximum is below, and each snapped power is a request
of its own bucket. -/
theorem maximumLimitsTheBuckets : Obligations.MaximumLimitsTheBuckets := by
  refine fun p => ⟨fun req i _ hbound => ?_, fun hmax b => ⟨((snap b).toNat : Int), ?_, ?_⟩⟩
  · exact bucket_toNat_le_of_lt_bound ((clampRequest_le_max p req).trans_lt hbound)
  · have hle := snap_le_5000 b
    constructor <;> omega
  · exact requestBucket_snap (hmax ▸ snap_le_5000 b)

/-- Settles O27: QUANT's writes are functions of the request and the parameters. -/
theorem quantIgnoresEarlierCommands : Obligations.QuantIgnoresEarlierCommands := by
  intro req s u hparams
  obtain ⟨t, ht⟩ : ∃ t, exec (.quant req) s = .next t := ⟨_, rfl⟩
  obtain ⟨v, hv⟩ : ∃ v, exec (.quant req) u = .next v := ⟨_, rfl⟩
  obtain ⟨hbkt, hmw, hdrv, hstat, hrsp⟩ := exec_quant_writes ht
  obtain ⟨hbkt', hmw', hdrv', hstat', hrsp'⟩ := exec_quant_writes hv
  rw [hparams] at hbkt hmw hdrv hstat
  have eb := hbkt.trans hbkt'.symm
  have em := hmw.trans hmw'.symm
  have ed := hdrv.trans hdrv'.symm
  have es := hstat.trans hstat'.symm
  exact ⟨t, v, ht, hv, eb, em, ed, es, by rw [hrsp, hrsp', rspQ_congr eb es ed em]⟩

end Sys2Proof.Machine
